-- ==== Sys2Proof/Word.lean ====
section
/-! DEFINITION. The widths of the DES engine as types (spec/00_scope.md R6, R8): every value is an unsigned bit vector of a stated width, bit 0 the least significant. -/

namespace Sys2Proof

/-- A 64-bit block, key or host register: BLOCK_W, KEY_W and DATA_W of R6. -/
abbrev Block := BitVec 64

/-- A Feistel half L or R: HALF_W of R6. -/
abbrev Half := BitVec 32

/-- A key-schedule half C or D: CD_W of R6. -/
abbrev KeyHalf := BitVec 28

/-- One subkey: RK_W of R6. -/
abbrev RoundKey := BitVec 48

/-- The 4-bit opcode of a command: OP_W of R6. -/
abbrev Opcode := BitVec 4

/-- The 68-bit BUS transaction word of spec/30_encoding.md R91. -/
abbrev TxWord := BitVec 68

/-- The 60 bits 63:4 of a command word, which the engine ignores (R95). -/
abbrev Ignored := BitVec 60

/-- RK[1..16]: RK_N entries of RK_W bits (R6, spec/10_state.md R30).
Entry r of the spec is entry r - 1 here. -/
abbrev RkStore := Vector RoundKey 16

end Sys2Proof
end

