-- ==== Sys2Proof/Syntax.lean ====
section
/-! DEFINITION. The instructions: one constructor per row of spec/opcode_table.json (two of its rows carry the mnemonic RESERVED), and the register names of spec/30_encoding.md R92. -/

namespace Sys2Proof

/-- The eight host-visible registers of R92. -/
inductive Reg where
  | key | iv | din | dout | cmd | status | ctrl | rkdata
  deriving DecidableEq, Repr

/-- One host transaction. The first two rows are of the BUS format (R91); the others are the command words (R95) that
a BUS write to index 4 presents. -/
inductive Instr where
  /-- RD: a read of register `r` (R210); DATA is 0 in every valid read word (R91). -/
  | rd (r : Reg)
  /-- WR: a write of `v` to register `r` (R211). -/
  | wr (r : Reg) (v : Block)
  /-- NOP, OP 0x0 (R218); `ign` is bits 63:4 of the word. -/
  | nop (ign : Ignored)
  /-- ECB_ENC, OP 0x1 (R219). -/
  | ecbEnc (ign : Ignored)
  /-- ECB_DEC, OP 0x2 (R220). -/
  | ecbDec (ign : Ignored)
  /-- CBC_ENC, OP 0x3 (R221). -/
  | cbcEnc (ign : Ignored)
  /-- CBC_DEC, OP 0x4 (R222). -/
  | cbcDec (ign : Ignored)
  /-- KEYSCHED, OP 0x5 (R224). -/
  | keysched (ign : Ignored)
  /-- RESERVED, OP 0x6 and 0x7 (R225, match 0x6 mask 0xE); `op0` is bit 0 of OP. -/
  | reservedLow (op0 : BitVec 1) (ign : Ignored)
  /-- RESERVED, OP 0x8 to 0xF (R225, match 0x8 mask 0x8); `op20` is bits 2:0 of OP. -/
  | reservedHigh (op20 : BitVec 3) (ign : Ignored)
  deriving DecidableEq, Repr

end Sys2Proof
end

