-- ==== Sys2Proof/WellFormed.lean ====
section
/-! DEFINITION. Which instruction terms are spellings of a transaction word. Widths are in the types, so one check is left. -/

namespace Sys2Proof

/-- The spelling check. A write to CMD (index 4) is spelled as the command it presents (spec/30_encoding.md R90, R95),
so that each valid transaction word has one spelling; every other term is the spelling of a word.
`wr .cmd v` keeps its whole meaning in the machine. DESIGN CHOICE, log 11; safe. -/
def Instr.wellFormed : Instr → Bool
  | .rd _ => true
  | .wr r _ => r != .cmd
  | .nop _ => true
  | .ecbEnc _ => true
  | .ecbDec _ => true
  | .cbcEnc _ => true
  | .cbcDec _ => true
  | .keysched _ => true
  | .reservedLow _ _ => true
  | .reservedHigh _ _ => true

end Sys2Proof
end

