-- ==== Sys2Proof/Decode.lean ====
section
/-! DEFINITION. The decoder of spec/30_encoding.md (R91, R92, R95, R96), total on every 68-bit word, and the encoder written from the same tables. -/

namespace Sys2Proof

/-- Why a transaction word is no valid encoding: R91 and R97 name one reason only. -/
inductive DecodeError where
  /-- A read word whose DATA is not 0 (R91: "a decoder refuses it"). -/
  | readWithData
  deriving DecidableEq, Repr

/-- The opcode values of R96. -/
def opNop : Opcode := 0x0#4
def opEcbEnc : Opcode := 0x1#4
def opEcbDec : Opcode := 0x2#4
def opCbcEnc : Opcode := 0x3#4
def opCbcDec : Opcode := 0x4#4
def opKeysched : Opcode := 0x5#4

/-- The register index IDX of R92. -/
def Reg.idx : Reg → BitVec 3
  | .key => 0#3
  | .iv => 1#3
  | .din => 2#3
  | .dout => 3#3
  | .cmd => 4#3
  | .status => 5#3
  | .ctrl => 6#3
  | .rkdata => 7#3

/-- The register an index names; R92 assigns every index. -/
def Reg.ofIdx (i : BitVec 3) : Reg :=
  match i.toNat with
  | 0 => .key
  | 1 => .iv
  | 2 => .din
  | 3 => .dout
  | 4 => .cmd
  | 5 => .status
  | 6 => .ctrl
  | _ => .rkdata

/-- OP, bits 3:0 of a command word (R95). -/
def cmdOp (w : Block) : Opcode := w.extractLsb' 0 4

/-- Bits 63:4 of a command word, ignored by the engine (R95). -/
def cmdIgnored (w : Block) : Ignored := w.extractLsb' 4 60

/-- The command a CMD word selects: it matches on OP alone (R95, R96, R97). -/
def decodeCmd (w : Block) : Instr :=
  match (cmdOp w).toNat with
  | 0 => .nop (cmdIgnored w)
  | 1 => .ecbEnc (cmdIgnored w)
  | 2 => .ecbDec (cmdIgnored w)
  | 3 => .cbcEnc (cmdIgnored w)
  | 4 => .cbcDec (cmdIgnored w)
  | 5 => .keysched (cmdIgnored w)
  | 6 => .reservedLow ((cmdOp w).extractLsb' 0 1) (cmdIgnored w)
  | 7 => .reservedLow ((cmdOp w).extractLsb' 0 1) (cmdIgnored w)
  | _ => .reservedHigh ((cmdOp w).extractLsb' 0 3) (cmdIgnored w)

/-- WE, bit 67 of a transaction word (R91). -/
def txWe (w : TxWord) : Bool := w.getLsbD 67

/-- IDX, bits 66:64 (R91). -/
def txIdx (w : TxWord) : BitVec 3 := w.extractLsb' 64 3

/-- DATA, bits 63:0 (R91). -/
def txData (w : TxWord) : Block := w.extractLsb' 0 64

/-- The transaction word with the given fields (R91). -/
def txWord (we : BitVec 1) (idx : BitVec 3) (data : Block) : TxWord := we ++ idx ++ data

/-- The decoder of a transaction word (R91, R92). A write to index 4 is decoded on as a command word (R90). -/
def decode (w : TxWord) : Except DecodeError Instr :=
  if txWe w then
    match Reg.ofIdx (txIdx w) with
    | .cmd => .ok (decodeCmd (txData w))
    | r => .ok (.wr r (txData w))
  else if txData w = 0#64 then .ok (.rd (Reg.ofIdx (txIdx w)))
  else .error .readWithData

/-- The command word of an opcode and ignored bits (R95). -/
def cmdWord (op : Opcode) (ign : Ignored) : Block := ign ++ op

/-- The data a BUS write of the instruction carries; 0 for a read (R91, R95, R96). -/
def Instr.data : Instr → Block
  | .rd _ => 0#64
  | .wr _ v => v
  | .nop ign => cmdWord opNop ign
  | .ecbEnc ign => cmdWord opEcbEnc ign
  | .ecbDec ign => cmdWord opEcbDec ign
  | .cbcEnc ign => cmdWord opCbcEnc ign
  | .cbcDec ign => cmdWord opCbcDec ign
  | .keysched ign => cmdWord opKeysched ign
  | .reservedLow op0 ign => cmdWord (0b011#3 ++ op0) ign
  | .reservedHigh op20 ign => cmdWord (0b1#1 ++ op20) ign

/-- The encoder: the transaction word of an instruction (R91). -/
def encode : Instr → TxWord
  | .rd r => txWord 0#1 r.idx (Instr.data (.rd r))
  | .wr r v => txWord 1#1 r.idx v
  | .nop ign => txWord 1#1 Reg.cmd.idx (Instr.data (.nop ign))
  | .ecbEnc ign => txWord 1#1 Reg.cmd.idx (Instr.data (.ecbEnc ign))
  | .ecbDec ign => txWord 1#1 Reg.cmd.idx (Instr.data (.ecbDec ign))
  | .cbcEnc ign => txWord 1#1 Reg.cmd.idx (Instr.data (.cbcEnc ign))
  | .cbcDec ign => txWord 1#1 Reg.cmd.idx (Instr.data (.cbcDec ign))
  | .keysched ign => txWord 1#1 Reg.cmd.idx (Instr.data (.keysched ign))
  | .reservedLow op0 ign => txWord 1#1 Reg.cmd.idx (Instr.data (.reservedLow op0 ign))
  | .reservedHigh op20 ign => txWord 1#1 Reg.cmd.idx (Instr.data (.reservedHigh op20 ign))

/-- The transaction word that spec/opcode_table.json's numbering of an instruction stands for. Rows of at most 64 bits
are command words (R95), presented by a write to index 4; wider rows are BUS words (R91), whose bits above 67 must be 0.
DESIGN CHOICE, log 12; safe. -/
def tableTxWord (nbits w : Nat) : Option TxWord :=
  let word := w % 2 ^ nbits
  if nbits ≤ 64 then some (txWord 1#1 Reg.cmd.idx (BitVec.ofNat 64 word))
  else if word < 2 ^ 68 then some (BitVec.ofNat 68 word)
  else none

/-- The instruction the decoder reads from a row's word, numbered as spec/opcode_table.json numbers it. -/
def decodeTableWord (nbits w : Nat) : Option Instr :=
  match tableTxWord nbits w with
  | some tx => (decode tx).toOption
  | none => none

/-- One row of spec/opcode_table.json: a word of its format belongs to the row exactly when its masked bits match. -/
structure TableRow where
  mnemonic : String
  mask : Nat
  value : Nat
  deriving DecidableEq, Repr

/-- The rows of the BUS format (opcode_table.json, R91). -/
def busRows : List TableRow :=
  [⟨"RD", 0x80000000000000000, 0x00000000000000000⟩,
   ⟨"WR", 0x80000000000000000, 0x80000000000000000⟩]

/-- The rows of the CMD format (opcode_table.json, R96). -/
def cmdRows : List TableRow :=
  [⟨"NOP", 0xF, 0x0⟩, ⟨"ECB_ENC", 0xF, 0x1⟩, ⟨"ECB_DEC", 0xF, 0x2⟩, ⟨"CBC_ENC", 0xF, 0x3⟩,
   ⟨"CBC_DEC", 0xF, 0x4⟩, ⟨"KEYSCHED", 0xF, 0x5⟩, ⟨"RESERVED", 0xE, 0x6⟩, ⟨"RESERVED", 0x8, 0x8⟩]

/-- Whether a word belongs to a row. -/
def TableRow.holds (row : TableRow) (w : Nat) : Bool := w &&& row.mask == row.value

end Sys2Proof
end

