-- ==== Sys2Proof/Config.lean ====
section
/-! DEFINITION. What is fixed for this hardware (spec/00_scope.md R6) and the one free value of the spec (spec/93_implementation_defined.md U1). -/

namespace Sys2Proof.Config

/-- ROUNDS of R6: rounds of the transform, and the number of subkeys RK_N. -/
def rounds : Nat := 16

/-- LAT_KS of R6: edges of a key-schedule phase, one subkey per edge. -/
def latKs : Nat := 16

/-- LAT_RND of R6: edges of a round phase, one round per edge. -/
def latRnd : Nat := 16

/-- FREE VALUE (spec/10_state.md R36, spec/93_implementation_defined.md U1): what RK[r] holds after the n-th reset
edge of a run, "unspecified" in the spec.
It has no body, so nothing can be proved of its value. Log 4; safe. -/
opaque unspecifiedRoundKey : (n : Nat) → (r : Nat) → RoundKey

end Sys2Proof.Config
end

