-- ==== Sys2Proof/Machine/Tables.lean ====
section
/-! DEFINITION. The constant tables of spec/40_tables.md and the two primitives that read them: Permute (spec/00_scope.md R10) and the S-box lookup (R129). Every entry is in the spec's own DES numbering, bit 1 the most significant (R9). -/

namespace Sys2Proof.Machine

/-- IP, the Initial Permutation, 64 bits to 64 bits: the table body of R121, a bijection (R138). -/
def ipTable : List Nat :=
   [58, 50, 42, 34, 26, 18, 10,  2,
    60, 52, 44, 36, 28, 20, 12,  4,
    62, 54, 46, 38, 30, 22, 14,  6,
    64, 56, 48, 40, 32, 24, 16,  8,
    57, 49, 41, 33, 25, 17,  9,  1,
    59, 51, 43, 35, 27, 19, 11,  3,
    61, 53, 45, 37, 29, 21, 13,  5,
    63, 55, 47, 39, 31, 23, 15,  7]

/-- FP, the Final Permutation, 64 bits to 64 bits: the table body of R122, IP's inverse (R138). -/
def fpTable : List Nat :=
   [40,  8, 48, 16, 56, 24, 64, 32,
    39,  7, 47, 15, 55, 23, 63, 31,
    38,  6, 46, 14, 54, 22, 62, 30,
    37,  5, 45, 13, 53, 21, 61, 29,
    36,  4, 44, 12, 52, 20, 60, 28,
    35,  3, 43, 11, 51, 19, 59, 27,
    34,  2, 42, 10, 50, 18, 58, 26,
    33,  1, 41,  9, 49, 17, 57, 25]

/-- E, the expansion, 32 bits to 48 bits: the table body of R123; every input bit is read (R138). -/
def expansionTable : List Nat :=
   [32,  1,  2,  3,  4,  5,
     4,  5,  6,  7,  8,  9,
     8,  9, 10, 11, 12, 13,
    12, 13, 14, 15, 16, 17,
    16, 17, 18, 19, 20, 21,
    20, 21, 22, 23, 24, 25,
    24, 25, 26, 27, 28, 29,
    28, 29, 30, 31, 32,  1]

/-- P, the permutation of the round function, 32 bits to 32 bits: the table body of R124, a bijection (R138). -/
def roundPermTable : List Nat :=
   [16,  7, 20, 21,
    29, 12, 28, 17,
     1, 15, 23, 26,
     5, 18, 31, 10,
     2,  8, 24, 14,
    32, 27,  3,  9,
    19, 13, 30,  6,
    22, 11,  4, 25]

/-- PC-1, Permuted Choice 1, 64 bits to 56 bits: the table body of R125; it reads no parity bit (R138). -/
def pc1Table : List Nat :=
   [57, 49, 41, 33, 25, 17,  9,
     1, 58, 50, 42, 34, 26, 18,
    10,  2, 59, 51, 43, 35, 27,
    19, 11,  3, 60, 52, 44, 36,
    63, 55, 47, 39, 31, 23, 15,
     7, 62, 54, 46, 38, 30, 22,
    14,  6, 61, 53, 45, 37, 29,
    21, 13,  5, 28, 20, 12,  4]

/-- PC-2, Permuted Choice 2, 56 bits to 48 bits: the table body of R126; it reads 48 of the 56 bits (R138). -/
def pc2Table : List Nat :=
   [14, 17, 11, 24,  1,  5,
     3, 28, 15,  6, 21, 10,
    23, 19, 12,  4, 26,  8,
    16,  7, 27, 20, 13,  2,
    41, 52, 31, 37, 47, 55,
    30, 40, 51, 45, 33, 48,
    44, 49, 39, 56, 34, 53,
    46, 42, 50, 36, 29, 32]

/-- SHIFT, the rotation schedule for rounds 1 to 16: R127. -/
def shiftTable : List Nat :=
   [1, 1, 2, 2, 2, 2, 2, 2, 1, 2, 2, 2, 2, 2, 2, 1]

/-- S-box S1, four rows of sixteen: R130. -/
def sbox1Table : List (List Nat) :=
   [[14,  4, 13,  1,  2, 15, 11,  8,  3, 10,  6, 12,  5,  9,  0,  7],
    [ 0, 15,  7,  4, 14,  2, 13,  1, 10,  6, 12, 11,  9,  5,  3,  8],
    [ 4,  1, 14,  8, 13,  6,  2, 11, 15, 12,  9,  7,  3, 10,  5,  0],
    [15, 12,  8,  2,  4,  9,  1,  7,  5, 11,  3, 14, 10,  0,  6, 13]]

/-- S-box S2, four rows of sixteen: R131. -/
def sbox2Table : List (List Nat) :=
   [[15,  1,  8, 14,  6, 11,  3,  4,  9,  7,  2, 13, 12,  0,  5, 10],
    [ 3, 13,  4,  7, 15,  2,  8, 14, 12,  0,  1, 10,  6,  9, 11,  5],
    [ 0, 14,  7, 11, 10,  4, 13,  1,  5,  8, 12,  6,  9,  3,  2, 15],
    [13,  8, 10,  1,  3, 15,  4,  2, 11,  6,  7, 12,  0,  5, 14,  9]]

/-- S-box S3, four rows of sixteen: R132. -/
def sbox3Table : List (List Nat) :=
   [[10,  0,  9, 14,  6,  3, 15,  5,  1, 13, 12,  7, 11,  4,  2,  8],
    [13,  7,  0,  9,  3,  4,  6, 10,  2,  8,  5, 14, 12, 11, 15,  1],
    [13,  6,  4,  9,  8, 15,  3,  0, 11,  1,  2, 12,  5, 10, 14,  7],
    [ 1, 10, 13,  0,  6,  9,  8,  7,  4, 15, 14,  3, 11,  5,  2, 12]]

/-- S-box S4, four rows of sixteen: R133. -/
def sbox4Table : List (List Nat) :=
   [[ 7, 13, 14,  3,  0,  6,  9, 10,  1,  2,  8,  5, 11, 12,  4, 15],
    [13,  8, 11,  5,  6, 15,  0,  3,  4,  7,  2, 12,  1, 10, 14,  9],
    [10,  6,  9,  0, 12, 11,  7, 13, 15,  1,  3, 14,  5,  2,  8,  4],
    [ 3, 15,  0,  6, 10,  1, 13,  8,  9,  4,  5, 11, 12,  7,  2, 14]]

/-- S-box S5, four rows of sixteen: R134. -/
def sbox5Table : List (List Nat) :=
   [[ 2, 12,  4,  1,  7, 10, 11,  6,  8,  5,  3, 15, 13,  0, 14,  9],
    [14, 11,  2, 12,  4,  7, 13,  1,  5,  0, 15, 10,  3,  9,  8,  6],
    [ 4,  2,  1, 11, 10, 13,  7,  8, 15,  9, 12,  5,  6,  3,  0, 14],
    [11,  8, 12,  7,  1, 14,  2, 13,  6, 15,  0,  9, 10,  4,  5,  3]]

/-- S-box S6, four rows of sixteen: R135. -/
def sbox6Table : List (List Nat) :=
   [[12,  1, 10, 15,  9,  2,  6,  8,  0, 13,  3,  4, 14,  7,  5, 11],
    [10, 15,  4,  2,  7, 12,  9,  5,  6,  1, 13, 14,  0, 11,  3,  8],
    [ 9, 14, 15,  5,  2,  8, 12,  3,  7,  0,  4, 10,  1, 13, 11,  6],
    [ 4,  3,  2, 12,  9,  5, 15, 10, 11, 14,  1,  7,  6,  0,  8, 13]]

/-- S-box S7, four rows of sixteen: R136. -/
def sbox7Table : List (List Nat) :=
   [[ 4, 11,  2, 14, 15,  0,  8, 13,  3, 12,  9,  7,  5, 10,  6,  1],
    [13,  0, 11,  7,  4,  9,  1, 10, 14,  3,  5, 12,  2, 15,  8,  6],
    [ 1,  4, 11, 13, 12,  3,  7, 14, 10, 15,  6,  8,  0,  5,  9,  2],
    [ 6, 11, 13,  8,  1,  4, 10,  7,  9,  5,  0, 15, 14,  2,  3, 12]]

/-- S-box S8, four rows of sixteen: R137. -/
def sbox8Table : List (List Nat) :=
   [[13,  2,  8,  4,  6, 15, 11,  1, 10,  9,  3, 14,  5,  0, 12,  7],
    [ 1, 15, 13,  8, 10,  3,  7,  4, 12,  5,  6, 11,  0, 14,  9,  2],
    [ 7, 11,  4,  1,  9, 12, 14,  2,  0,  6, 10, 13, 15,  3,  5,  8],
    [ 2,  1, 14,  7,  4, 10,  8, 13, 15, 12,  9,  0,  3,  5,  6, 11]]

/-- The S-box table number k, for k = 1..8 (R128). Each row is a permutation of 0..15 (R138). -/
def sboxTable : Nat → List (List Nat)
  | 1 => sbox1Table
  | 2 => sbox2Table
  | 3 => sbox3Table
  | 4 => sbox4Table
  | 5 => sbox5Table
  | 6 => sbox6Table
  | 7 => sbox7Table
  | _ => sbox8Table

/-- DES bit i of an n-bit value is v[n - i] (R9). -/
def desBit {n : Nat} (v : BitVec n) (i : Nat) : Bool := v.getLsbD (n - i)

/-- Permute(T, v, n) of R10: DES bit j of the m-bit result is DES bit T[j] of v, entry 1 giving the most significant bit. -/
def permute {n : Nat} (m : Nat) (table : List Nat) (v : BitVec n) : BitVec m :=
  BitVec.ofNat m (table.foldl (fun acc t => 2 * acc + (desBit v t).toNat) 0)

/-- IP(x) of R121. -/
def ip (x : Block) : Block := permute 64 ipTable x

/-- FP(y) of R122. -/
def fp (y : Block) : Block := permute 64 fpTable y

/-- E(r) of R123. -/
def expand (r : Half) : BitVec 48 := permute 48 expansionTable r

/-- Pperm(s) of R124. -/
def roundPerm (s : Half) : Half := permute 32 roundPermTable s

/-- PC1(k) of R125. -/
def pc1 (k : Block) : BitVec 56 := permute 56 pc1Table k

/-- PC2(cd) of R126. -/
def pc2 (cd : BitVec 56) : RoundKey := permute 48 pc2Table cd

/-- SHIFT[r] of R127, for r = 1..16. Outside that range, where the spec gives none and no run goes, it is SHIFT[1] = 1 at
r = 0 and 0 at r ≥ 17. DESIGN CHOICE, log 8; unsafe for claims about such states. -/
def shiftAmount (r : Nat) : Nat := shiftTable.getD (r - 1) 0

/-- row(g) = b0 ‖ b5, where b0 = g[5] and b5 = g[0] (R129, spec/90_conflicts.md C5). -/
def sboxRow (g : BitVec 6) : BitVec 2 := g.extractLsb' 5 1 ++ g.extractLsb' 0 1

/-- col(g) = g[4:1] (R129). -/
def sboxCol (g : BitVec 6) : BitVec 4 := g.extractLsb' 1 4

/-- SBOX_k(g) = Sk[row(g)][col(g)] (R129). -/
def sbox (k : Nat) (g : BitVec 6) : BitVec 4 :=
  BitVec.ofNat 4 (((sboxTable k).getD (sboxRow g).toNat []).getD (sboxCol g).toNat 0)

end Sys2Proof.Machine
end

