-- ==== Sys2Proof/Machine/KeySchedule.lean ====
section
/-! DEFINITION. The key schedule KS of spec/41_key_schedule.md as a pure function (R140 to R145), and the round-key store's read and write. -/

namespace Sys2Proof.Machine

/-- rotl_28 of spec/00_scope.md R12: toward bit 27, the leaving bits re-enter at bit 0. -/
def rotl28 (v : KeyHalf) (s : Nat) : KeyHalf := v.rotateLeft s

/-- The pair (C, D) of a 56-bit value: C is bits 55:28, D is bits 27:0 (R141). -/
def splitCd (cd : BitVec 56) : KeyHalf × KeyHalf := (cd.extractLsb' 28 28, cd.extractLsb' 0 28)

/-- (C0, D0) of a key (R140, R141). -/
def initialHalves (key : Block) : KeyHalf × KeyHalf := splitCd (pc1 key)

/-- One rotation of both halves by SHIFT[r] (R142). -/
def rotateHalves (r : Nat) (cd : KeyHalf × KeyHalf) : KeyHalf × KeyHalf :=
  (rotl28 cd.1 (shiftAmount r), rotl28 cd.2 (shiftAmount r))

/-- (C_r, D_r) of a key, each from the halves of the round before (R142). -/
def halvesAt (key : Block) : Nat → KeyHalf × KeyHalf
  | 0 => initialHalves key
  | r + 1 => rotateHalves (r + 1) (halvesAt key r)

/-- PC2(C ‖ D), C in the high half (R143). -/
def subkeyOf (cd : KeyHalf × KeyHalf) : RoundKey := pc2 (cd.1 ++ cd.2)

/-- K_r of a key, for r = 1..16 (R143). -/
def subkey (key : Block) (r : Nat) : RoundKey := subkeyOf (halvesAt key r)

/-- KS(key) of R145: the sequence K_1, ..., K_16. -/
def keySchedule (key : Block) : RkStore := Vector.ofFn fun i => subkey key (i.val + 1)

/-- The store's place of entry r, r - 1 for r = 1..16. The spec gives a meaning for those r only. Any other r, which no
run reaches, has a place too: r = 0 that of entry 1, and r ≥ 17 that of entry (r - 1) mod 16 + 1.
DESIGN CHOICE, log 8; unsafe for claims about such states. -/
def rkPlace (r : Nat) : Nat := (r - 1) % 16

theorem rkPlace_lt (r : Nat) : rkPlace r < 16 := Nat.mod_lt _ (by decide)

/-- RK[r] (spec/00_scope.md R13). -/
def rkRead (rk : RkStore) (r : Nat) : RoundKey := rk[rkPlace r]'(rkPlace_lt r)

/-- RK[r] <- k (spec/00_scope.md R13). -/
def rkWrite (rk : RkStore) (r : Nat) (k : RoundKey) : RkStore := rk.set (rkPlace r) k (rkPlace_lt r)

end Sys2Proof.Machine
end

