-- ==== Sys2Proof/Machine/Feistel.lean ====
section
/-! DEFINITION. The round function, the Feistel transform, encrypt and decrypt of spec/42_feistel.md (R160 to R168) as pure functions. -/

namespace Sys2Proof.Machine

/-- hi(v) = v[63:32], the half L of a block (spec/00_scope.md R11). -/
def hi32 (v : Block) : Half := v.extractLsb' 32 32

/-- lo(v) = v[31:0], the half R of a block (spec/00_scope.md R11). -/
def lo32 (v : Block) : Half := v.extractLsb' 0 32

/-- The pair (L, R) of a block (R167 step 1). -/
def splitBlock (v : Block) : Half × Half := (hi32 v, lo32 v)

/-- grp_k(x) = x[53-6k : 48-6k], for k = 1..8 (spec/00_scope.md R11). -/
def sixBits (x : BitVec 48) (k : Nat) : BitVec 6 := x.extractLsb' (48 - 6 * k) 6

/-- The substitution layer of R162: group k through S-box k, the outputs in group order, S1's the highest. -/
def substitute (x : BitVec 48) : Half :=
  sbox 1 (sixBits x 1) ++ sbox 2 (sixBits x 2) ++ sbox 3 (sixBits x 3) ++ sbox 4 (sixBits x 4) ++
  sbox 5 (sixBits x 5) ++ sbox 6 (sixBits x 6) ++ sbox 7 (sixBits x 7) ++ sbox 8 (sixBits x 8)

/-- The round function f of R164. -/
def roundFunction (r : Half) (k : RoundKey) : Half := roundPerm (substitute (expand r ^^^ k))

/-- One Feistel round (R165): round(l, r, k) = (r, l xor f(r, k)). -/
def feistelRound (lr : Half × Half) (k : RoundKey) : Half × Half := (lr.2, lr.1 ^^^ roundFunction lr.2 k)

/-- The subkey of round i (R166): K_i, or K_{17-i} in reverse order. -/
def subkeyInOrder (rk : RkStore) (rev : Bool) (i : Nat) : RoundKey := if rev then rkRead rk (17 - i) else rkRead rk i

/-- (L_i, R_i): the halves after i rounds (R165, R167 step 2). -/
def halvesAfter (rk : RkStore) (rev : Bool) (lr : Half × Half) : Nat → Half × Half
  | 0 => lr
  | i + 1 => feistelRound (halvesAfter rk rev lr i) (subkeyInOrder rk rev (i + 1))

/-- Steps 3 and 4 of R167: FP(R16 ‖ L16) (spec/90_conflicts.md C1). -/
def preOutput (lr : Half × Half) : Block := fp (lr.2 ++ lr.1)

/-- transform(block, K, rev) of R167. -/
def transform (block : Block) (rk : RkStore) (rev : Bool) : Block :=
  preOutput (halvesAfter rk rev (splitBlock (ip block)) Config.rounds)

/-- encrypt(block, key) of R168. -/
def encrypt (block key : Block) : Block := transform block (keySchedule key) false

/-- decrypt(block, key) of R168. -/
def decrypt (block key : Block) : Block := transform block (keySchedule key) true

end Sys2Proof.Machine
end

