-- ==== Sys2Proof/Machine/Cbc.lean ====
section
/-! DEFINITION. The CBC-chaining XOR arbiter of spec/43_cbc.md: its three parts per command (R191 to R193) and the source's sequence functions (R194, R195). -/

namespace Sys2Proof.Machine

/-- x_in of R191: the input XOR at acceptance. -/
def chainInput (op : Opcode) (din iv : Block) : Block := if op = opCbcEnc then din ^^^ iv else din

/-- result of R192: the output XOR at completion. -/
def chainOutput (op : Opcode) (y chain : Block) : Block := if op = opCbcDec then y ^^^ chain else y

/-- The next IV of R193: the result for CBC_ENC, the ciphertext consumed for CBC_DEC, otherwise unchanged. -/
def chainNext (op : Opcode) (result cin iv : Block) : Block :=
  if op = opCbcEnc then result else if op = opCbcDec then cin else iv

/-- cbcEncrypt(blocks, key, iv) of R194. -/
def cbcEncrypt (blocks : List Block) (key iv : Block) : List Block :=
  match blocks with
  | [] => []
  | block :: rest => encrypt (block ^^^ iv) key :: cbcEncrypt rest key (encrypt (block ^^^ iv) key)

/-- cbcDecrypt(blocks, key, iv) of R195. -/
def cbcDecrypt (blocks : List Block) (key iv : Block) : List Block :=
  match blocks with
  | [] => []
  | cipher :: rest => (decrypt cipher key ^^^ iv) :: cbcDecrypt rest key cipher

end Sys2Proof.Machine
end

