-- ==== Sys2Proof/Machine/State.lean ====
section
/-! DEFINITION. The state record of spec/10_state.md R36 as plain data, the port lines of R20, the reasons a step can stop, and the state after reset. -/

namespace Sys2Proof.Machine

/-- phase of spec/10_state.md R31. -/
inductive Phase where
  | idle | ks | rnd
  deriving DecidableEq, Repr

/-- The input ports of R20 in one cycle. -/
structure PortIn where
  rst : Bool
  busEn : Bool
  busWe : Bool
  busIdx : BitVec 3
  busWdata : Block
  deriving DecidableEq, Repr

/-- The state record of R36; BUSY is `phase ≠ idle` (R31, R36), and RK[r] is entry r - 1 of `rk`.
The last three fields are the model's own: the last cycle's bus_rdata (log 9), the host's coming cycles (log 1) and
the number of free values drawn (log 4). -/
structure State where
  key : Block
  iv : Block
  din : Block
  dout : Block
  done : Bool
  rkValid : Bool
  errCmd : Bool
  errBusy : Bool
  irqEn : Bool
  rkSel : BitVec 4
  rk : RkStore
  phase : Phase
  cnt : BitVec 5
  opL : Opcode
  c : KeyHalf
  d : KeyHalf
  l : Half
  r : Half
  chainL : Block
  cinL : Block
  busRdata : Block
  inputs : List PortIn
  freeCount : Nat
  deriving DecidableEq, Repr

/-- The reasons to stop with a fault: there is none. The datapath is total (spec/42_feistel.md R169) and both error
causes only set a flag (spec/60_exceptions.md R253, R254). -/
inductive Fault where
  deriving DecidableEq, Repr

/-- The reasons to stop with a refusal. -/
inductive Refusal where
  /-- Raised by an arm of exec that has no meaning yet; no arm is left so. Safe. -/
  | notModelled (mnemonic : String)
  /-- Raised by step when the decoder rejects the word the port lines spell. It never happens: the word of port lines
  carries DATA 0 in a read (log 10). Safe. -/
  | undecodable (why : DecodeError)
  deriving DecidableEq, Repr

/-- What exec and step answer. -/
abbrev Result := Host.Outcome State Fault Refusal

/-- The state after an edge with rst = 1 (R36, spec/70_reset_and_hazards.md R280, R281).
R36 leaves RK unspecified: all zeros here, DESIGN CHOICE, log 3. The last three fields: DESIGN CHOICE, log 9, 1, 5. -/
def State.reset : State where
  key := 0#64
  iv := 0#64
  din := 0#64
  dout := 0#64
  done := false
  rkValid := false
  errCmd := false
  errBusy := false
  irqEn := false
  rkSel := 0#4
  rk := Vector.replicate 16 0#48
  phase := .idle
  cnt := 0#5
  opL := 0#4
  c := 0#28
  d := 0#28
  l := 0#32
  r := 0#32
  chainL := 0#64
  cinL := 0#64
  busRdata := 0#64
  inputs := []
  freeCount := 0

end Sys2Proof.Machine
end

