-- ==== Sys2Proof/Machine/Flags.lean ====
section
/-! DEFINITION. The flags: the five STATUS fields of spec/10_state.md R26 and R34, their setting and clearing (spec/60_exceptions.md), and the irq output (R256). -/

namespace Sys2Proof.Machine

/-- BUSY = 1 exactly when phase is not IDLE (R31). -/
def State.busy (s : State) : Bool := s.phase != .idle

/-- The completion's DONE set, applied last in an edge (R35, spec/44_commands.md R212). -/
def setDone (t : State) : State := { t with done := true }

/-- set ERR_CMD (R250): the error event of a reserved opcode. The engine has no trap (R254), so the flag is all it leaves. -/
def raiseErrCmd (t : State) : State := { t with errCmd := true }

/-- set ERR_BUSY (R251): the error event of a write dropped while BUSY = 1. No trap (R254). -/
def raiseErrBusy (t : State) : State := { t with errBusy := true }

/-- A STATUS write: write-1-to-clear of bits 1, 3 and 4; every other bit is ignored (R26, spec/44_commands.md R211). -/
def clearStatus (v : Block) (t : State) : State :=
  { t with
    done := t.done && !v.getLsbD 1
    errCmd := t.errCmd && !v.getLsbD 3
    errBusy := t.errBusy && !v.getLsbD 4 }

/-- The STATUS word a read returns (R26, spec/44_commands.md R210): zext_64(ERR_BUSY ‖ ERR_CMD ‖ RK_VALID ‖ DONE ‖ BUSY). -/
def statusWord (s : State) : Block :=
  (BitVec.ofBool s.errBusy ++ BitVec.ofBool s.errCmd ++ BitVec.ofBool s.rkValid ++ BitVec.ofBool s.done ++
    BitVec.ofBool s.busy).setWidth 64

/-- The irq output, a level function of the current state (R256). -/
def State.irq (s : State) : Bool := s.irqEn && (s.done || s.errCmd || s.errBusy)

end Sys2Proof.Machine
end

