-- ==== Sys2Proof/Machine/Operands.lean ====
section
/-! DEFINITION. What a bus read returns, register by register (spec/10_state.md R21 to R29, spec/44_commands.md R210). -/

namespace Sys2Proof.Machine

/-- The CTRL word a read returns (R27): zext_64(RK_SEL ‖ 0b000 ‖ IRQ_EN). -/
def ctrlWord (s : State) : Block := (s.rkSel ++ 0#3 ++ BitVec.ofBool s.irqEn).setWidth 64

/-- The RKDATA window (R28): RK[RK_SEL + 1] zero-extended while RK_VALID = 1, else 0. -/
def rkWindow (s : State) : Block := if s.rkValid then (rkRead s.rk (s.rkSel.toNat + 1)).setWidth 64 else 0#64

/-- ReadReg(s, idx) of R210. -/
def readReg (s : State) : Reg → Block
  | .key => 0#64
  | .iv => s.iv
  | .din => s.din
  | .dout => s.dout
  | .cmd => 0#64
  | .status => statusWord s
  | .ctrl => ctrlWord s
  | .rkdata => rkWindow s

end Sys2Proof.Machine
end

