-- ==== Sys2Proof/Machine/Ops.lean ====
section
/-! DEFINITION. The shared operations of an edge: the register writes (spec/44_commands.md R211), acceptance (R214), completion (R216), the KS edge (spec/41_key_schedule.md R147), the round edge (spec/42_feistel.md R170) and the edge step that composes them (R212). In a pair of states, `s` is the state before the edge and `t` the next state being written (R13). -/

namespace Sys2Proof.Machine

/-- A KEY write (R211): KEY <- v and RK_VALID <- 0. The store is left as it stands (log 6). -/
def loadKey (v : Block) (t : State) : State := { t with key := v, rkValid := false }

/-- An IV write (R211). -/
def loadIv (v : Block) (t : State) : State := { t with iv := v }

/-- A DIN write (R211). -/
def loadDin (v : Block) (t : State) : State := { t with din := v }

/-- A CTRL write (R211, spec/10_state.md R27): IRQ_EN <- v[0], RK_SEL <- v[7:4]; every other bit is ignored. -/
def loadCtrl (v : Block) (t : State) : State := { t with irqEn := v.getLsbD 0, rkSel := v.extractLsb' 4 4 }

/-- The part of Accept(s, t, op) that latches the operands (R214, spec/43_cbc.md R191): op_l, DONE, L, R, chain_l and cin_l. -/
def latchOperands (s : State) (op : Opcode) (t : State) : State :=
  let lr := splitBlock (ip (chainInput op s.din s.iv))
  { t with opL := op, done := false, l := lr.1, r := lr.2, chainL := s.iv, cinL := s.din }

/-- The part of Accept that starts a derivation (R214, spec/41_key_schedule.md R146). -/
def startDerivation (s : State) (t : State) : State :=
  let cd := initialHalves s.key
  { t with c := cd.1, d := cd.2, rkValid := false, phase := .ks, cnt := 1#5 }

/-- The start of the round phase (R214, spec/41_key_schedule.md R147). -/
def startRounds (t : State) : State := { t with phase := .rnd, cnt := 1#5 }

/-- Accept(s, t, op) of R214. -/
def accept (s : State) (op : Opcode) (t : State) : State :=
  if op = opKeysched ∨ s.rkValid = false then startDerivation s (latchOperands s op t)
  else startRounds (latchOperands s op t)

/-- The four commands that deliver a block (R216). -/
def isBlockOp (op : Opcode) : Bool := op == opEcbEnc || op == opEcbDec || op == opCbcEnc || op == opCbcDec

/-- The DOUT and IV writes of completion (R216, spec/43_cbc.md R192, R193); y is the transform result. -/
def deliver (s : State) (y : Block) (t : State) : State :=
  let result := chainOutput s.opL y s.chainL
  if isBlockOp s.opL then { t with dout := result, iv := chainNext s.opL result s.cinL t.iv } else t

/-- The end of a command (R216): phase <- IDLE, cnt <- 0. BUSY becomes 0. -/
def retire (t : State) : State := { t with phase := .idle, cnt := 0#5 }

/-- One key-schedule edge (spec/41_key_schedule.md R147), and whether it completes the command. -/
def ksEdge (s : State) : State × Bool :=
  let cd := rotateHalves s.cnt.toNat (s.c, s.d)
  let t := { s with c := cd.1, d := cd.2, rk := rkWrite s.rk s.cnt.toNat (subkeyOf cd) }
  if s.cnt = 16#5 then
    if s.opL = opKeysched then (retire { t with rkValid := true }, true)
    else (startRounds { t with rkValid := true }, false)
  else ({ t with cnt := s.cnt + 1#5 }, false)

/-- Whether the round edge takes the subkeys in reverse order (spec/42_feistel.md R170). -/
def takesReverse (op : Opcode) : Bool := !(op == opEcbEnc || op == opCbcEnc)

/-- One round edge (spec/42_feistel.md R170), and whether it completes the command. -/
def rndEdge (s : State) : State × Bool :=
  let lr := feistelRound (s.l, s.r) (subkeyInOrder s.rk (takesReverse s.opL) s.cnt.toNat)
  let t := { s with l := lr.1, r := lr.2 }
  if s.cnt = 16#5 then (retire (deliver s (preOutput lr) t), true)
  else ({ t with cnt := s.cnt + 1#5 }, false)

/-- The engine's own part of an edge, and done_set (R212). -/
def engineEdge (s : State) : State × Bool :=
  match s.phase with
  | .idle => (s, false)
  | .ks => ksEdge s
  | .rnd => rndEdge s

/-- The edge step with rst = 0 (R212): the engine's part, then the host's write, then DONE's set. -/
def edge (s : State) (write : State → State) : State :=
  if (engineEdge s).2 then setDone (write (engineEdge s).1) else write (engineEdge s).1

/-- A write judged against the state before the edge: dropped with ERR_BUSY while BUSY = 1 (R211, spec/60_exceptions.md R251). -/
def unlessBusy (s : State) (write : State → State) (t : State) : State := if s.busy then raiseErrBusy t else write t

/-- CmdWrite(s, t, op) of R213. -/
def cmdWrite (s : State) (op : Opcode) (t : State) : State :=
  if op = opNop then t
  else if op.toNat ≤ 5 then accept s op t
  else raiseErrCmd t

/-- WR(s, t, idx, v) of R211. -/
def writeReg (s : State) (reg : Reg) (v : Block) : State → State :=
  match reg with
  | .key => unlessBusy s (loadKey v)
  | .iv => unlessBusy s (loadIv v)
  | .din => unlessBusy s (loadDin v)
  | .dout => id
  | .cmd => unlessBusy s (cmdWrite s (cmdOp v))
  | .status => clearStatus v
  | .ctrl => loadCtrl v
  | .rkdata => id

/-- bus_rdata of the cycle just run (spec/20_memory.md R63). -/
def driveRdata (v : Block) (t : State) : State := { t with busRdata := v }

/-- A cycle without a write: the engine's edge alone, and bus_rdata as given. -/
def quietCycle (s : State) (rdata : Block) : State := driveRdata rdata (edge s id)

/-- A cycle with a write: bus_rdata is 0 (spec/20_memory.md R63). -/
def writeCycle (s : State) (write : State → State) : State := driveRdata 0#64 (edge s write)

/-- A cycle with bus_en = 0 (R212, spec/60_exceptions.md R265). -/
def idleCycle (s : State) : State := quietCycle s 0#64

/-- The port lines in a cycle with no access and rst = 0. -/
def PortIn.quiet : PortIn := ⟨false, false, false, 0#3, 0#64⟩

/-- bus_rdata in a cycle (spec/20_memory.md R63): ReadReg of the state before the edge in a read, else 0. -/
def portRdata (p : PortIn) (s : State) : Block :=
  if p.busEn && !p.busWe then readReg s (Reg.ofIdx p.busIdx) else 0#64

/-- An edge with rst = 1 (spec/70_reset_and_hazards.md R280): the reset record whatever the state was; the cycle's write
is dropped, its read answered from the state before the edge. RK takes a free value (log 4). -/
def resetCycle (p : PortIn) (s : State) : State :=
  { State.reset with
    rk := Vector.ofFn fun i => Config.unspecifiedRoundKey s.freeCount (i.val + 1)
    busRdata := portRdata p s
    inputs := s.inputs
    freeCount := s.freeCount + 1 }

/-- The transaction word of the port lines of an access (spec/30_encoding.md R91): bus_wdata is ignored in a read
(spec/10_state.md R20), so DATA is 0 there (log 10). -/
def PortIn.txWord (p : PortIn) : TxWord :=
  Sys2Proof.txWord (BitVec.ofBool p.busWe) p.busIdx (if p.busWe then p.busWdata else 0#64)

/-- The port lines that play a transaction word (spec/30_encoding.md R91). -/
def PortIn.ofTxWord (w : TxWord) : PortIn := ⟨false, true, txWe w, txIdx w, txData w⟩

/-- The port lines that play a transaction word, if it is a valid encoding; a word the decoder refuses "never reaches
the port" (R91), so its cycle has no access (log 10). -/
def PortIn.play (w : TxWord) : PortIn :=
  match decode w with
  | .ok _ => PortIn.ofTxWord w
  | .error _ => PortIn.quiet

/-- The port lines of the next cycle. With nothing listed the host drives no access (log 1). -/
def nextPort (s : State) : PortIn :=
  match s.inputs with
  | [] => PortIn.quiet
  | p :: _ => p

/-- The state once the host's next cycle is taken off the list. -/
def takePort (s : State) : State := { s with inputs := s.inputs.drop 1 }

/-- The state with the port lines of the next cycle replaced. -/
def placePort (p : PortIn) (s : State) : State := { s with inputs := p :: s.inputs.drop 1 }

end Sys2Proof.Machine
end

