-- ==== Sys2Proof/Machine/Bus.lean ====
section
/-! DEFINITION. The meanings of the BUS rows: RD (spec/44_commands.md R210) and WR (R211). Each is one cycle of the port. -/

namespace Sys2Proof.Machine

/-- RD (R210): bus_rdata is ReadReg of the state before the edge; the read itself changes nothing. -/
def execRd (reg : Reg) (s : State) : Result := .next (quietCycle s (readReg s reg))

/-- WR (R211): every register and every case of the rule. -/
def execWr (reg : Reg) (v : Block) (s : State) : Result := .next (writeCycle s (writeReg s reg v))

end Sys2Proof.Machine
end

