-- ==== Sys2Proof/Machine/Commands.lean ====
section
/-! DEFINITION. The meanings of the CMD rows (spec/44_commands.md R218 to R225): the cycle in which the command word is written. The ignored bits 63:4 are not examined (R95, R213). The results of an accepted command come at its last edge, by Ops.lean's `ksEdge` and `rndEdge`. -/

namespace Sys2Proof.Machine

/-- NOP (R218): nothing when BUSY = 0; dropped with ERR_BUSY when BUSY = 1. -/
def execNop (_ : Ignored) (s : State) : Result := .next (writeCycle s (unlessBusy s id))

/-- ECB_ENC (R219). -/
def execEcbEnc (_ : Ignored) (s : State) : Result := .next (writeCycle s (unlessBusy s (accept s opEcbEnc)))

/-- ECB_DEC (R220). -/
def execEcbDec (_ : Ignored) (s : State) : Result := .next (writeCycle s (unlessBusy s (accept s opEcbDec)))

/-- CBC_ENC (R221). -/
def execCbcEnc (_ : Ignored) (s : State) : Result := .next (writeCycle s (unlessBusy s (accept s opCbcEnc)))

/-- CBC_DEC (R222). -/
def execCbcDec (_ : Ignored) (s : State) : Result := .next (writeCycle s (unlessBusy s (accept s opCbcDec)))

/-- KEYSCHED (R224). -/
def execKeysched (_ : Ignored) (s : State) : Result := .next (writeCycle s (unlessBusy s (accept s opKeysched)))

/-- RESERVED, OP 0x6 and 0x7 (R225): ERR_CMD when BUSY = 0, ERR_BUSY only when BUSY = 1 (R252). -/
def execReservedLow (_ : BitVec 1) (_ : Ignored) (s : State) : Result :=
  .next (writeCycle s (unlessBusy s raiseErrCmd))

/-- RESERVED, OP 0x8 to 0xF (R225). -/
def execReservedHigh (_ : BitVec 3) (_ : Ignored) (s : State) : Result :=
  .next (writeCycle s (unlessBusy s raiseErrCmd))

end Sys2Proof.Machine
end

