-- ==== Sys2Proof/Machine/Dispatch.lean ====
section
/-! DEFINITION. exec: one arm per constructor of Instr. -/

namespace Sys2Proof.Machine

def exec (i : Instr) (s : State) : Host.Outcome State Fault Refusal :=
  match i with
  | .rd reg => Sys2Proof.Machine.execRd reg s
  | .wr reg v => Sys2Proof.Machine.execWr reg v s
  | .nop ign => Sys2Proof.Machine.execNop ign s
  | .ecbEnc ign => Sys2Proof.Machine.execEcbEnc ign s
  | .ecbDec ign => Sys2Proof.Machine.execEcbDec ign s
  | .cbcEnc ign => Sys2Proof.Machine.execCbcEnc ign s
  | .cbcDec ign => Sys2Proof.Machine.execCbcDec ign s
  | .keysched ign => Sys2Proof.Machine.execKeysched ign s
  | .reservedLow low ign => Sys2Proof.Machine.execReservedLow low ign s
  | .reservedHigh low ign => Sys2Proof.Machine.execReservedHigh low ign s

end Sys2Proof.Machine
end

