-- ==== Sys2Proof/Machine/Step.lean ====
section
/-! DEFINITION. One clock edge (spec/44_commands.md R212): reset, an access of the host, or no access. -/

namespace Sys2Proof.Machine

/-- tick(s, rst, bus) of R212 on the port lines `p`, with the outputs of the cycle. -/
def cycle (p : PortIn) (s : State) : Host.Outcome State Fault Refusal :=
  if p.rst then .next (resetCycle p s)
  else if p.busEn then
    match decode p.txWord with
    | .ok i => exec i s
    | .error why => .refused (.undecodable why)
  else .next (idleCycle s)

/-- One step: the next cycle of the host is taken off the list and run. -/
def step (s : State) : Host.Outcome State Fault Refusal := cycle (nextPort s) (takePort s)

/-- `s` with the instruction of a word of spec/opcode_table.json's numbering presented at the port in the next cycle
(log 2): its transaction word's lines replace the next entry of `inputs`. -/
def State.withFetchWord (s : State) (nbits w : Nat) : State :=
  match tableTxWord nbits w with
  | some tx => placePort (PortIn.play tx) s
  | none => placePort PortIn.quiet s

end Sys2Proof.Machine
end

