-- ==== Sys2Proof/Machine/HostSide.lean ====
section
/-! DEFINITION. The host's side of the port as the spec words it: byte packing (spec/20_memory.md R64), the byte-addressed adapter (R65), the assembly lines and pseudo-instructions (spec/30_encoding.md R99, R100), and the outputs a run can be observed by (spec/92_eei_decisions.md D23). The engine reads nothing of this file. -/

namespace Sys2Proof.Machine

/-- The block of eight bytes, big-endian: byte 0 is bits 63:56, byte 7 is bits 7:0 (R64). -/
def packBlock (b : Vector (BitVec 8) 8) : Block :=
  b[(0 : Nat)] ++ b[(1 : Nat)] ++ b[(2 : Nat)] ++ b[(3 : Nat)] ++
  b[(4 : Nat)] ++ b[(5 : Nat)] ++ b[(6 : Nat)] ++ b[(7 : Nat)]

/-- The register an access of `width` bytes at a byte offset reaches through an adapter (R65): register i at offset 8*i,
whole registers only; any other access is turned away by the adapter and never reaches the engine. -/
def adapterReg (offset width : Nat) : Option Reg :=
  if width = 8 ∧ offset % 8 = 0 ∧ offset / 8 < 8 then some (Reg.ofIdx (BitVec.ofNat 3 (offset / 8))) else none

/-- The port lines of one access in a cycle with rst = 0. -/
def PortIn.access (i : Instr) : PortIn := PortIn.ofTxWord (encode i)

/-- The commands by name, as the pseudo-instruction CMD takes them (R96, R100). -/
inductive CmdName where
  | nop | ecbEnc | ecbDec | cbcEnc | cbcDec | keysched
  deriving DecidableEq, Repr

/-- The command word with bits 63:4 zero that `CMD <op>` writes (R100). -/
def CmdName.instr : CmdName → Instr
  | .nop => .nop 0#60
  | .ecbEnc => .ecbEnc 0#60
  | .ecbDec => .ecbDec 0#60
  | .cbcEnc => .cbcEnc 0#60
  | .cbcDec => .cbcDec 0#60
  | .keysched => .keysched 0#60

/-- The one-cycle lines of R99, and POLL, whose length depends on what it reads (R100). -/
inductive HostStep where
  | access (i : Instr)
  | idle
  | poll
  deriving DecidableEq, Repr

/-- A line of a host program (R99, R100). -/
inductive HostLine where
  | rd (r : Reg)
  | wr (r : Reg) (v : Block)
  | idle
  | cmd (op : CmdName)
  | poll
  | clrst
  /-- SELRK r, e; `sel` is r - 1. -/
  | selrk (sel : BitVec 4) (e : Bool)
  /-- ECB op, x and CBC op, x have one expansion (R100), for ECB_ENC, ECB_DEC, CBC_ENC and CBC_DEC. That the term also
  exists with NOP and KEYSCHED is no line of R100: DESIGN CHOICE, log 18. -/
  | block (op : CmdName) (x : Block)
  deriving DecidableEq, Repr

/-- The instruction a line `WR r, v` plays: a write to CMD is the command it presents (log 11). -/
def wrLine (r : Reg) (v : Block) : Instr := if r = .cmd then decodeCmd v else .wr r v

/-- The expansion of a line (R100). R100 gives the last one to the four block commands only; with NOP and KEYSCHED the
same four accesses are the model's own line. DESIGN CHOICE, log 18; safe. -/
def HostLine.expand : HostLine → List HostStep
  | .rd r => [.access (.rd r)]
  | .wr r v => [.access (wrLine r v)]
  | .idle => [.idle]
  | .cmd op => [.access op.instr]
  | .poll => [.poll]
  | .clrst => [.access (.wr .status 0x1A#64)]
  | .selrk sel e => [.access (.wr .ctrl ((sel ++ 0#3 ++ BitVec.ofBool e).setWidth 64))]
  | .block op x => [.access (.wr .din x), .access op.instr, .poll, .access (.rd .dout)]

/-- The state after one cycle with the given port lines, if it has one. -/
def next? (p : PortIn) (s : State) : Option State :=
  match cycle p s with
  | .next t => some t
  | .fault _ => none
  | .refused _ => none

/-- POLL (R100): reads STATUS until bit 0 of the value read is 0, at most `fuel` times (log 17).
It answers the state after the last read and the values read, the last one last. -/
def pollStatus : (fuel : Nat) → State → Option (State × List Block)
  | 0, _ => none
  | fuel + 1, s =>
    match next? (PortIn.access (.rd .status)) s with
    | none => none
    | some t =>
      if t.busRdata.getLsbD 0 then
        match pollStatus fuel t with
        | none => none
        | some (u, reads) => some (u, t.busRdata :: reads)
      else some (t, [t.busRdata])

/-- The reads one POLL may take in this file: more than the 33 that the longest command needs (spec/70_reset_and_hazards.md R290, log 17). -/
def pollFuel : Nat := 64

/-- One step of a host program, and the values its reads returned. -/
def HostStep.run : HostStep → State → Option (State × List Block)
  | .access i, s =>
    match next? (PortIn.access i) s with
    | none => none
    | some t =>
      match i with
      | .rd _ => some (t, [t.busRdata])
      | _ => some (t, [])
  | .idle, s => (next? PortIn.quiet s).map fun t => (t, [])
  | .poll, s => pollStatus pollFuel s

/-- A list of host steps run in order, and the values of all reads. -/
def runHostSteps : List HostStep → State → Option (State × List Block)
  | [], s => some (s, [])
  | a :: rest, s =>
    match a.run s with
    | none => none
    | some (t, reads) =>
      match runHostSteps rest t with
      | none => none
      | some (u, more) => some (u, reads ++ more)

/-- A host program (R99) run from a state, and the values of all its reads. -/
def runHostProgram (program : List HostLine) (s : State) : Option (State × List Block) :=
  runHostSteps (program.flatMap HostLine.expand) s

/-- One command line per block, each run to its end, and the value of each line's last read, which is DOUT
(spec/43_cbc.md R196). -/
def runBlocks (op : CmdName) : List Block → State → Option (State × List Block)
  | [], s => some (s, [])
  | b :: rest, s =>
    match runHostProgram [.block op b] s with
    | none => none
    | some (t, reads) =>
      match runBlocks op rest t with
      | none => none
      | some (u, more) => some (u, reads.getLast?.toList ++ more)

/-- The output ports in one cycle (spec/10_state.md R20). -/
structure PortOut where
  busRdata : Block
  irq : Bool
  deriving DecidableEq, Repr

/-- The outputs of a cycle: bus_rdata and irq as they stand before the edge (spec/20_memory.md R63, spec/60_exceptions.md R256). -/
def portOut (p : PortIn) (s : State) : PortOut := ⟨portRdata p s, s.irq⟩

/-- What a run can be observed by (D23): the outputs of its first n cycles. -/
def observe : (n : Nat) → State → List PortOut
  | 0, _ => []
  | n + 1, s =>
    portOut (nextPort s) s ::
      match step s with
      | .next t => observe n t
      | .fault _ => []
      | .refused _ => []

end Sys2Proof.Machine
end

