-- ==== Sys2Proof/Safety.lean ====
section
/-! DEFINITION. The terms the claims use: what a coherent state is (the invariants of spec/10_state.md R30 and R31 and the datapath's meaning of R148 and R171), an edge with or without an access, and the latency of a command (spec/70_reset_and_hazards.md R290). -/

namespace Sys2Proof.Machine

/-- An opcode that starts a command: 0x1 to 0x5 (spec/44_commands.md R213). -/
def isCommandOp (op : Opcode) : Bool := isBlockOp op || op == opKeysched

/-- The column "KS edges" of R290's table, given RK_VALID at acceptance: KEYSCHED always derives, a block command when
RK_VALID = 0, and NOP and the reserved opcodes, which are not accepted, never. -/
def ksEdges (op : Opcode) (rkValid : Bool) : Nat :=
  if op = opKeysched then Config.latKs
  else if isBlockOp op && !rkValid then Config.latKs
  else 0

/-- The column "RND edges" of R290's table: a block command runs the rounds, every other opcode none. -/
def rndEdges (op : Opcode) : Nat := if isBlockOp op then Config.latRnd else 0

/-- N of R290, for every row of its table: edges from the accepting to the completing edge, given RK_VALID at acceptance.
It is 0 for NOP and the reserved opcodes, whose write leaves BUSY = 0. -/
def latency (op : Opcode) (rkValid : Bool) : Nat := ksEdges op rkValid + rndEdges op

/-- The result a block command (`isBlockOp`) delivers for the operands at acceptance (spec/44_commands.md R217). R217 gives
the other opcodes no result, and the function is used of none of them. -/
def commandResult (op : Opcode) (din iv key : Block) : Block :=
  chainOutput op (transform (chainInput op din iv) (keySchedule key) (takesReverse op)) iv

/-- The halves the datapath holds once `n` rounds of the command in flight are done (R171). -/
def roundsDone (s : State) (n : Nat) : Half × Half :=
  halvesAfter s.rk (takesReverse s.opL) (splitBlock (ip (chainInput s.opL s.cinL s.chainL))) n

/-- What holds in every busy phase: a counter in 1..16 (R31), DONE = 0 (R214, R216), and the operands as latched, which
cannot change while BUSY = 1 (R215). -/
structure InFlight (s : State) : Prop where
  cnt_pos : 1 ≤ s.cnt.toNat
  cnt_le : s.cnt.toNat ≤ 16
  done_clear : s.done = false
  chain_latched : s.chainL = s.iv
  cin_latched : s.cinL = s.din

/-- What holds in phase KS (R147, R148): RK_VALID = 0, the halves and the entries derived so far, and the input halves waiting. -/
structure DerivingKeys (s : State) : Prop where
  inFlight : InFlight s
  op_legal : isCommandOp s.opL = true
  rk_masked : s.rkValid = false
  halves : (s.c, s.d) = halvesAt s.key (s.cnt.toNat - 1)
  derived : ∀ r, 1 ≤ r → r < s.cnt.toNat → rkRead s.rk r = subkey s.key r
  waiting : (s.l, s.r) = roundsDone s 0

/-- What holds in phase RND (R170, R171): RK_VALID = 1, and the halves after the rounds done so far. -/
structure RunningRounds (s : State) : Prop where
  inFlight : InFlight s
  op_legal : isBlockOp s.opL = true
  rk_valid : s.rkValid = true
  rounds : (s.l, s.r) = roundsDone s (s.cnt.toNat - 1)

/-- The state invariant of the engine: RK = KS(KEY) while RK_VALID = 1 (R30), and the phase's own invariant (R31, R33). -/
structure Coherent (s : State) : Prop where
  store : s.rkValid = true → s.rk = keySchedule s.key
  at_rest : s.phase = .idle → s.cnt = 0#5
  deriving_keys : s.phase = .ks → DerivingKeys s
  running_rounds : s.phase = .rnd → RunningRounds s

/-- An edge with rst = 0 (spec/44_commands.md R212): with the host's access in it, or with bus_en = 0. -/
def edgeWith (access : Option Instr) (s : State) : Result :=
  match access with
  | some i => exec i s
  | none => .next (idleCycle s)

/-- `n` steps of the machine. -/
def runFor (n : Nat) (s : State) : Result := Sys2Proof.core.run n s

/-- The host holds rst = 0 in the next n cycles; its accesses are free. -/
def noResetFor (n : Nat) (s : State) : Prop := ∀ p ∈ s.inputs.take n, p.rst = false

end Sys2Proof.Machine
end

