-- ==== Sys2Proof/Certificates/Slice0/Obligations.lean ====
section
/-! DEFINITION. The statements for the provers. Each docstring names the rule of spec/ it formalises. -/

open Sys2Proof Sys2Proof.Machine

/-! Encoding (spec/30_encoding.md). -/

/-- R91, R92, R95, R96: no bit of an instruction is lost by encoding it. -/
def Obligations.DecodeOfEncode : Prop :=
  ∀ i : Instr, i.wellFormed = true → decode (encode i) = .ok i

/-- R91, R92, R95, R96: a valid transaction word has one spelling, and encoding it gives the word back. -/
def Obligations.EncodeOfDecode : Prop :=
  ∀ (w : TxWord) (i : Instr), decode w = .ok i → i.wellFormed = true ∧ encode i = w

/-- R91, R97: the only words the decoder refuses are reads whose DATA is not 0. -/
def Obligations.OnlyReadsWithDataAreRefused : Prop :=
  ∀ w : TxWord, decode w = .error .readWithData ↔ w.getLsbD 67 = false ∧ w.toNat % 2 ^ 64 ≠ 0

/-- R101: the spec's own encoding examples. -/
def Obligations.SpecWordsDecode : Prop :=
  decode 0x8133457799BBCDFF1#68 = .ok (.wr .key 0x133457799BBCDFF1#64) ∧
  decode 0xA0123456789ABCDEF#68 = .ok (.wr .din 0x0123456789ABCDEF#64) ∧
  decode 0xC0000000000000001#68 = .ok (.ecbEnc 0#60) ∧
  decode 0xC0000000000000004#68 = .ok (.cbcDec 0#60) ∧
  decode 0x50000000000000000#68 = .ok (.rd .status) ∧
  decode 0x30000000000000000#68 = .ok (.rd .dout) ∧
  decode 0xD000000000000001A#68 = .ok (.wr .status 0x1A#64) ∧
  decode 0xE00000000000000F1#68 = .ok (.wr .ctrl 0xF1#64)

/-- R96, R97 and opcode_table.json: every command word belongs to exactly one CMD row, and every transaction word to
exactly one BUS row. -/
def Obligations.EveryWordHasOneTableRow : Prop :=
  (∀ w : Block, (cmdRows.filter fun row => row.holds w.toNat).length = 1) ∧
  (∀ w : TxWord, (busRows.filter fun row => row.holds w.toNat).length = 1)

/-- R95: the command and everything it does depend on CMD & 0xF alone, whichever way the word is written. -/
def Obligations.CommandDependsOnLowFourBits : Prop :=
  ∀ (v w : Block) (s : State), v &&& 0xF#64 = w &&& 0xF#64 →
    exec (.wr .cmd v) s = exec (.wr .cmd w) s ∧ exec (decodeCmd v) s = exec (decodeCmd w) s

/-- R90, R211, R213: a write to CMD is the command that its word selects. -/
def Obligations.WriteToCmdIsTheCommand : Prop :=
  ∀ (w : Block) (s : State), exec (.wr .cmd w) s = exec (decodeCmd w) s

/-! The step (spec/44_commands.md R212). -/

/-- R212, R91: when the port lines of the next cycle carry an access with rst = 0, a step is exec of the instruction
their transaction word decodes to, with the cycle taken off the host's list (log 1); and a valid word played at the port
is that instruction. The last clause is the model's presentation of a table row's word (log 2, log 12). -/
def Obligations.StepRunsTheDecodedInstruction : Prop :=
  (∀ (s : State) (p : PortIn) (rest : List PortIn) (i : Instr),
    s.inputs = p :: rest → p.rst = false → p.busEn = true → decode p.txWord = .ok i →
    step s = exec i { s with inputs := rest }) ∧
  (∀ (s : State) (rest : List PortIn) (w : TxWord) (i : Instr),
    s.inputs = PortIn.play w :: rest → decode w = .ok i → step s = exec i { s with inputs := rest }) ∧
  (∀ (s : State) (nbits w : Nat) (i : Instr), decodeTableWord nbits w = some i →
    step (s.withFetchWord nbits w) = exec i { s with inputs := s.inputs.drop 1 })

/-- R212, R63: a cycle without an access and with rst = 0 is the engine's own edge, with bus_rdata 0. With the host's
list empty there is no access (log 1, the model's choice). -/
def Obligations.StepWithoutAccess : Prop :=
  (∀ (s : State) (p : PortIn) (rest : List PortIn),
    s.inputs = p :: rest → p.rst = false → p.busEn = false → step s = .next (idleCycle { s with inputs := rest })) ∧
  (∀ s : State, s.inputs = [] → step s = .next (idleCycle s))

/-- R20, R253, R254, R260: the interface has no error response and nothing stops the engine: every access and every cycle has a next state. -/
def Obligations.EveryCycleCompletes : Prop :=
  (∀ (i : Instr) (s : State), ∃ t, exec i s = .next t) ∧ (∀ s : State, ∃ t, step s = .next t)

/-! Reset (spec/70_reset_and_hazards.md). -/

/-- R36, R281: the reset record, and what every register reads as in it. -/
def Obligations.ResetRecord : Prop :=
  State.reset.key = 0#64 ∧ State.reset.iv = 0#64 ∧ State.reset.din = 0#64 ∧ State.reset.dout = 0#64 ∧
  State.reset.busy = false ∧ State.reset.done = false ∧ State.reset.rkValid = false ∧
  State.reset.errCmd = false ∧ State.reset.errBusy = false ∧ State.reset.irqEn = false ∧ State.reset.rkSel = 0#4 ∧
  State.reset.phase = .idle ∧ State.reset.cnt = 0#5 ∧ State.reset.opL = 0#4 ∧
  State.reset.c = 0#28 ∧ State.reset.d = 0#28 ∧ State.reset.l = 0#32 ∧ State.reset.r = 0#32 ∧
  State.reset.chainL = 0#64 ∧ State.reset.cinL = 0#64 ∧ State.reset.irq = false ∧
  ∀ reg, readReg State.reset reg = 0#64

/-- R280: an edge with rst = 1 gives the reset record whatever the state was, in flight or not; the cycle's write is
dropped and sets no flag, and its read is answered from the state before the edge. RK is left open (R36). -/
def Obligations.ResetEdgeOverridesEverything : Prop :=
  ∀ (s : State) (p : PortIn) (rest : List PortIn), s.inputs = p :: rest → p.rst = true →
    ∃ t, step s = .next t ∧
      t.key = 0#64 ∧ t.iv = 0#64 ∧ t.din = 0#64 ∧ t.dout = 0#64 ∧
      t.done = false ∧ t.rkValid = false ∧ t.errCmd = false ∧ t.errBusy = false ∧ t.irqEn = false ∧ t.rkSel = 0#4 ∧
      t.phase = .idle ∧ t.cnt = 0#5 ∧ t.opL = 0#4 ∧ t.c = 0#28 ∧ t.d = 0#28 ∧ t.l = 0#32 ∧ t.r = 0#32 ∧
      t.chainL = 0#64 ∧ t.cinL = 0#64 ∧ t.inputs = rest ∧
      t.busRdata = (if p.busEn = true ∧ p.busWe = false then readReg s (Reg.ofIdx p.busIdx) else 0#64)

/-! Reads (spec/44_commands.md R210). -/

/-- R210, R92: the register of each of the eight indices, in a read word (WE = 0, DATA 0) and in a write word, which at index
4 is a command word (R90); what RD puts on bus_rdata, register by register, from the
state before the edge; the read changes nothing else, so the rest of the next state is that of the cycle without an
access; and RD STATUS right after reset returns 0. That the next state keeps bus_rdata, and that it is 0 in State.reset, is
the model's choice (log 9). -/
def Obligations.ReadReturnsTheRegister : Prop :=
  (∀ (idx : BitVec 3) (reg : Reg),
    (idx, reg) ∈ [(0#3, Reg.key), (1#3, Reg.iv), (2#3, Reg.din), (3#3, Reg.dout), (4#3, Reg.cmd), (5#3, Reg.status),
      (6#3, Reg.ctrl), (7#3, Reg.rkdata)] →
    Reg.ofIdx idx = reg ∧ reg.idx = idx ∧ decode (0b0#1 ++ idx ++ 0#64) = .ok (.rd reg) ∧
    ∀ v : Block, decode (0b1#1 ++ idx ++ v) = .ok (if reg = .cmd then decodeCmd v else .wr reg v)) ∧
  (∀ (reg : Reg) (s : State), exec (.rd reg) s = .next { idleCycle s with
    busRdata := match reg with
      | .key => 0#64
      | .iv => s.iv
      | .din => s.din
      | .dout => s.dout
      | .cmd => 0#64
      | .status => BitVec.ofNat 64 (16 * s.errBusy.toNat + 8 * s.errCmd.toNat + 4 * s.rkValid.toNat +
          2 * s.done.toNat + s.busy.toNat)
      | .ctrl => BitVec.ofNat 64 (16 * s.rkSel.toNat + s.irqEn.toNat)
      | .rkdata => if s.rkValid = true then BitVec.ofNat 64 (s.rk.toList.getD s.rkSel.toNat 0#48).toNat else 0#64 }) ∧
  exec (.rd .status) State.reset = .next State.reset

/-- R265, R212: with BUSY = 0 an edge without an access changes nothing but the model's record of bus_rdata (log 9). -/
def Obligations.QuietEdgeKeepsEverything : Prop :=
  ∀ s : State, s.busy = false → idleCycle s = { s with busRdata := 0#64 }

/-- R212, R66: what an edge without an access leaves alone in every state, busy or not: the engine never writes KEY, DIN,
CTRL or the error flags, keeps the latched operands, and never clears DONE or RK_VALID. -/
def Obligations.EngineEdgeFrame : Prop :=
  ∀ s : State,
    (idleCycle s).key = s.key ∧ (idleCycle s).din = s.din ∧ (idleCycle s).errCmd = s.errCmd ∧
    (idleCycle s).errBusy = s.errBusy ∧ (idleCycle s).irqEn = s.irqEn ∧ (idleCycle s).rkSel = s.rkSel ∧
    (idleCycle s).opL = s.opL ∧ (idleCycle s).chainL = s.chainL ∧ (idleCycle s).cinL = s.cinL ∧
    (idleCycle s).inputs = s.inputs ∧ (s.done = true → (idleCycle s).done = true) ∧
    (s.rkValid = true → (idleCycle s).rkValid = true) ∧ (idleCycle s).busRdata = 0#64

/-- R29: a reserved bit reads as 0 and a write to it is ignored without a flag. -/
def Obligations.ReservedBitsReadZeroAndIgnoreWrites : Prop :=
  (∀ s : State, ∃ t, exec (.rd .status) s = .next t ∧ t.busRdata &&& 0x1F#64 = t.busRdata) ∧
  (∀ s : State, ∃ t, exec (.rd .ctrl) s = .next t ∧ t.busRdata &&& 0xF1#64 = t.busRdata) ∧
  (∀ s : State, ∃ t, exec (.rd .rkdata) s = .next t ∧ t.busRdata &&& 0xFFFFFFFFFFFF#64 = t.busRdata) ∧
  (∀ s : State, ∃ t, exec (.rd .cmd) s = .next t ∧ t.busRdata = 0#64) ∧
  (∀ (s : State) (v w : Block), v &&& 0x1A#64 = w &&& 0x1A#64 → exec (.wr .status v) s = exec (.wr .status w) s) ∧
  (∀ (s : State) (v w : Block), v &&& 0xF1#64 = w &&& 0xF1#64 → exec (.wr .ctrl v) s = exec (.wr .ctrl w) s) ∧
  (∀ (s : State) (v : Block), exec (.wr .rkdata v) s = .next (idleCycle s)) ∧
  (∀ (s : State) (v w : Block), v &&& 0xF#64 = w &&& 0xF#64 → exec (.wr .cmd v) s = exec (.wr .cmd w) s)

/-! Writes (spec/44_commands.md R211). -/

/-- R21, R22, R23, R211: with BUSY = 0 a write to KEY, IV or DIN sets the register, a KEY write also clears RK_VALID, and
nothing else changes (that RK keeps its contents over a KEY write, by R212's t := s, is log 6). -/
def Obligations.WriteOfADataRegister : Prop :=
  ∀ (s : State) (v : Block), s.busy = false →
    exec (.wr .key v) s = .next { s with key := v, rkValid := false, busRdata := 0#64 } ∧
    exec (.wr .iv v) s = .next { s with iv := v, busRdata := 0#64 } ∧
    exec (.wr .din v) s = .next { s with din := v, busRdata := 0#64 }

/-- R24, R28, R211: a write to DOUT or RKDATA is ignored at any time: the cycle is the cycle without an access. -/
def Obligations.WriteOfAReadOnlyRegister : Prop :=
  ∀ (s : State) (v : Block),
    exec (.wr .dout v) s = .next (idleCycle s) ∧ exec (.wr .rkdata v) s = .next (idleCycle s)

/-- R26, R211: a STATUS write clears DONE, ERR_CMD and ERR_BUSY where it writes 1, with BUSY = 0 or 1, and changes nothing
else; a completion in the same edge leaves DONE = 1 (R35). -/
def Obligations.StatusWriteOneToClear : Prop :=
  ∀ (s : State) (v : Block),
    exec (.wr .status v) s = .next { idleCycle s with
      done := (s.busy && !(idleCycle s).busy) || (s.done && !v.getLsbD 1)
      errCmd := s.errCmd && !v.getLsbD 3
      errBusy := s.errBusy && !v.getLsbD 4 }

/-- R35: DONE set wins: a completing edge leaves DONE = 1 even when the host writes STATUS with bit 1 = 1 in it. -/
def Obligations.DoneSetWins : Prop :=
  ∀ (s : State) (v : Block), s.busy = true → (idleCycle s).busy = false → v.getLsbD 1 = true →
    ∃ t, exec (.wr .status v) s = .next t ∧ t.busy = false ∧ t.done = true

/-- R27, R211: a CTRL write sets IRQ_EN from bit 0 and RK_SEL from bits 7:4, with BUSY = 0 or 1, changes nothing else, and
the register reads back as those bits. -/
def Obligations.CtrlWrite : Prop :=
  ∀ (s : State) (v : Block), ∃ t, exec (.wr .ctrl v) s = .next t ∧
    t = { idleCycle s with irqEn := v.getLsbD 0, rkSel := v.extractLsb' 4 4 } ∧
    readReg t .ctrl = v &&& 0xF1#64

/-- R251: a write to KEY, IV, DIN or CMD while BUSY = 1 is dropped, whatever the value or opcode: the next state is that of
the cycle without the access, with ERR_BUSY set (STATUS bit 4). Writes to STATUS, CTRL, DOUT and RKDATA never raise it. -/
def Obligations.WriteWhileBusyIsDropped : Prop :=
  (∀ (s : State) (i : Instr), s.busy = true →
    (match i with
      | .rd _ => False
      | .wr reg _ => reg = .key ∨ reg = .iv ∨ reg = .din ∨ reg = .cmd
      | .nop _ => True
      | .ecbEnc _ => True
      | .ecbDec _ => True
      | .cbcEnc _ => True
      | .cbcDec _ => True
      | .keysched _ => True
      | .reservedLow _ _ => True
      | .reservedHigh _ _ => True) →
    ∃ t, exec i s = .next t ∧ t = { idleCycle s with errBusy := true } ∧ (readReg t .status).getLsbD 4 = true) ∧
  (∀ (s : State) (reg : Reg) (v : Block), reg = .status ∨ reg = .ctrl ∨ reg = .dout ∨ reg = .rkdata →
    ∃ t, exec (.wr reg v) s = .next t ∧ (t.errBusy = true → s.errBusy = true))

/-! Errors and the interrupt (spec/60_exceptions.md). -/

/-- R250: a CMD write with OP in 0x6..0xF while BUSY = 0 sets ERR_CMD (STATUS bit 3) and nothing else; the opcode is not kept.
That bus_rdata is 0 in the next state is R63 with the model's own field (log 9). -/
def Obligations.ReservedOpcodeSetsErrCmd : Prop :=
  ∀ (s : State) (op0 : BitVec 1) (op20 : BitVec 3) (ign : Ignored) (w : Block), s.busy = false → 6 ≤ w.toNat % 16 →
    exec (.reservedLow op0 ign) s = .next { s with errCmd := true, busRdata := 0#64 } ∧
    exec (.reservedHigh op20 ign) s = .next { s with errCmd := true, busRdata := 0#64 } ∧
    exec (.wr .cmd w) s = .next { s with errCmd := true, busRdata := 0#64 } ∧
    (readReg { s with errCmd := true, busRdata := 0#64 } .status).getLsbD 3 = true

/-- R250, R251, R252, R255: exactly what one access does to the two error flags. Each is set by its own cause, cleared by
its own W1C bit and by nothing else; a CMD write raises at most one of them, ERR_BUSY first. -/
def Obligations.ErrorFlagsChangeOnlyByTheirCauses : Prop :=
  ∀ (i : Instr) (s : State), ∃ t, exec i s = .next t ∧
    t.errCmd = (match i with
      | .rd _ => s.errCmd
      | .wr .status v => s.errCmd && !v.getLsbD 3
      | .wr .cmd v => s.errCmd || (!s.busy && decide (6 ≤ v.toNat % 16))
      | .wr _ _ => s.errCmd
      | .nop _ => s.errCmd
      | .ecbEnc _ => s.errCmd
      | .ecbDec _ => s.errCmd
      | .cbcEnc _ => s.errCmd
      | .cbcDec _ => s.errCmd
      | .keysched _ => s.errCmd
      | .reservedLow _ _ => s.errCmd || !s.busy
      | .reservedHigh _ _ => s.errCmd || !s.busy) ∧
    t.errBusy = (match i with
      | .rd _ => s.errBusy
      | .wr .status v => s.errBusy && !v.getLsbD 4
      | .wr .ctrl _ => s.errBusy
      | .wr .dout _ => s.errBusy
      | .wr .rkdata _ => s.errBusy
      | .wr _ _ => s.errBusy || s.busy
      | .nop _ => s.errBusy || s.busy
      | .ecbEnc _ => s.errBusy || s.busy
      | .ecbDec _ => s.errBusy || s.busy
      | .cbcEnc _ => s.errBusy || s.busy
      | .cbcDec _ => s.errBusy || s.busy
      | .keysched _ => s.errBusy || s.busy
      | .reservedLow _ _ => s.errBusy || s.busy
      | .reservedHigh _ _ => s.errBusy || s.busy)

/-- R256, R257: irq = IRQ_EN and (DONE or ERR_CMD or ERR_BUSY), of the current state alone; it stays 1 over a cycle without
an access; and from a state with irq = 1 it is 1 after an access exactly when the access leaves IRQ_EN and one of the
flags set: a STATUS write lowers it only by clearing every flag that is set with no completion in the edge, a CTRL write
only by bit 0 = 0, an accepted command (which clears DONE) only when no error flag is set, and no other access does. -/
def Obligations.IrqHeldUntilCleared : Prop :=
  (∀ s : State, s.irq = true ↔ s.irqEn = true ∧ (s.done = true ∨ s.errCmd = true ∨ s.errBusy = true)) ∧
  (∀ s : State, s.irq = true → (idleCycle s).irq = true) ∧
  ∀ (i : Instr) (s : State), s.irq = true → ∃ t, exec i s = .next t ∧
    (t.irq = true ↔
      match i with
      | .rd _ => True
      | .wr .status v => (s.done = true ∧ v.getLsbD 1 = false) ∨ (s.errCmd = true ∧ v.getLsbD 3 = false) ∨
          (s.errBusy = true ∧ v.getLsbD 4 = false) ∨ (s.busy = true ∧ (idleCycle s).busy = false)
      | .wr .ctrl v => v.getLsbD 0 = true
      | .wr .cmd v => s.busy = true ∨ v.toNat % 16 = 0 ∨ 6 ≤ v.toNat % 16 ∨ s.errCmd = true ∨ s.errBusy = true
      | .wr _ _ => True
      | .nop _ => True
      | .ecbEnc _ => s.busy = true ∨ s.errCmd = true ∨ s.errBusy = true
      | .ecbDec _ => s.busy = true ∨ s.errCmd = true ∨ s.errBusy = true
      | .cbcEnc _ => s.busy = true ∨ s.errCmd = true ∨ s.errBusy = true
      | .cbcDec _ => s.busy = true ∨ s.errCmd = true ∨ s.errBusy = true
      | .keysched _ => s.busy = true ∨ s.errCmd = true ∨ s.errBusy = true
      | .reservedLow _ _ => True
      | .reservedHigh _ _ => True)

/-! The commands and the engine's edges (spec/44_commands.md, 41_key_schedule.md, 42_feistel.md). -/

/-- R218: a command word with bits 3:0 = 0 is NOP; it changes nothing while BUSY = 0 (DONE is not cleared), and is dropped
with ERR_BUSY while BUSY = 1. That bus_rdata is 0 in the next state is R63 with the model's own field (log 9). -/
def Obligations.NopChangesNothing : Prop :=
  (∀ w : Block, w.extractLsb' 0 4 = 0#4 → decodeCmd w = .nop (w.extractLsb' 4 60)) ∧
  ∀ (ign : Ignored) (s : State),
    (s.busy = false → exec (.nop ign) s = .next { s with busRdata := 0#64 }) ∧
    (s.busy = true → exec (.nop ign) s = .next { idleCycle s with errBusy := true })

/-- R214: acceptance, for each of the five commands: what is latched, and whether a derivation starts.
The input of CBC_ENC is R191's. That bus_rdata is 0 in the next state is R63 with the model's own field (log 9). -/
def Obligations.AcceptanceLatchesTheOperands : Prop :=
  ∀ (s : State) (ign : Ignored) (i : Instr) (op : Opcode),
    (i, op) ∈ [(Instr.ecbEnc ign, 0x1#4), (Instr.ecbDec ign, 0x2#4), (Instr.cbcEnc ign, 0x3#4), (Instr.cbcDec ign, 0x4#4),
      (Instr.keysched ign, 0x5#4)] →
    s.busy = false →
    ∃ t, exec i s = .next t ∧ t.busy = true ∧
      t = (if op = 0x5#4 ∨ s.rkValid = false then
        { s with
          opL := op
          done := false
          l := (ip (if op = 0x3#4 then s.din ^^^ s.iv else s.din)).extractLsb' 32 32
          r := (ip (if op = 0x3#4 then s.din ^^^ s.iv else s.din)).extractLsb' 0 32
          chainL := s.iv
          cinL := s.din
          c := (pc1 s.key).extractLsb' 28 28
          d := (pc1 s.key).extractLsb' 0 28
          rkValid := false
          phase := .ks
          cnt := 1#5
          busRdata := 0#64 }
      else
        { s with
          opL := op
          done := false
          l := (ip (if op = 0x3#4 then s.din ^^^ s.iv else s.din)).extractLsb' 32 32
          r := (ip (if op = 0x3#4 then s.din ^^^ s.iv else s.din)).extractLsb' 0 32
          chainL := s.iv
          cinL := s.din
          phase := .rnd
          cnt := 1#5
          busRdata := 0#64 })

/-- R147: the key-schedule edge, at every edge with rst = 0, for k = cnt in 1..16, whatever access the host makes in it or
none: the halves rotate by SHIFT[k],
RK[k] takes PC2 of them, and after k = 16 the rounds start or KEYSCHED completes. -/
def Obligations.KeyScheduleEdge : Prop :=
  ∀ (access : Option Instr) (s : State), s.phase = .ks → 1 ≤ s.cnt.toNat → s.cnt.toNat ≤ 16 →
    ∃ t, edgeWith access s = .next t ∧
      t.c = rotl28 s.c (shiftTable.getD (s.cnt.toNat - 1) 0) ∧
      t.d = rotl28 s.d (shiftTable.getD (s.cnt.toNat - 1) 0) ∧
      rkRead t.rk s.cnt.toNat = pc2 (t.c ++ t.d) ∧
      (∀ q, 1 ≤ q → q ≤ 16 → q ≠ s.cnt.toNat → rkRead t.rk q = rkRead s.rk q) ∧
      (s.cnt.toNat < 16 → t.phase = .ks ∧ t.cnt.toNat = s.cnt.toNat + 1 ∧ t.rkValid = s.rkValid ∧ (t.done = true → s.done = true)) ∧
      (s.cnt.toNat = 16 → s.opL = 0x5#4 → t.phase = .idle ∧ t.cnt = 0#5 ∧ t.rkValid = true ∧ t.done = true) ∧
      (s.cnt.toNat = 16 → s.opL ≠ 0x5#4 → t.phase = .rnd ∧ t.cnt = 1#5 ∧ t.rkValid = true ∧ (t.done = true → s.done = true)) ∧
      t.key = s.key ∧ t.iv = s.iv ∧ t.din = s.din ∧ t.dout = s.dout ∧ t.opL = s.opL ∧ t.l = s.l ∧ t.r = s.r ∧
      t.chainL = s.chainL ∧ t.cinL = s.cinL ∧ t.inputs = s.inputs

/-- R170, R216, R192, R193: the round edge, at every edge with rst = 0, for i = cnt in 1..16, whatever access the host makes
in it or none: one Feistel round with the subkey of the command's order, and after i = 16 the completion with its DOUT and IV. -/
def Obligations.RoundEdge : Prop :=
  ∀ (access : Option Instr) (s : State), s.phase = .rnd → 1 ≤ s.cnt.toNat → s.cnt.toNat ≤ 16 →
    ∃ t, edgeWith access s = .next t ∧
      t.l = s.r ∧
      t.r = s.l ^^^ roundFunction s.r
        (if s.opL = 0x1#4 ∨ s.opL = 0x3#4 then rkRead s.rk s.cnt.toNat else rkRead s.rk (17 - s.cnt.toNat)) ∧
      (s.cnt.toNat < 16 → t.phase = .rnd ∧ t.cnt.toNat = s.cnt.toNat + 1 ∧ t.dout = s.dout ∧ t.iv = s.iv ∧
        (t.done = true → s.done = true)) ∧
      (s.cnt.toNat = 16 → t.phase = .idle ∧ t.cnt = 0#5 ∧ t.done = true ∧
        (s.opL = 0x1#4 ∨ s.opL = 0x2#4 → t.dout = fp (t.r ++ t.l) ∧ t.iv = s.iv) ∧
        (s.opL = 0x3#4 → t.dout = fp (t.r ++ t.l) ∧ t.iv = t.dout) ∧
        (s.opL = 0x4#4 → t.dout = fp (t.r ++ t.l) ^^^ s.chainL ∧ t.iv = s.cinL) ∧
        (s.opL = 0x0#4 ∨ 0x5#4 ≤ s.opL → t.dout = s.dout ∧ t.iv = s.iv)) ∧
      t.key = s.key ∧ t.din = s.din ∧ t.rk = s.rk ∧ t.rkValid = s.rkValid ∧ t.opL = s.opL ∧ t.c = s.c ∧ t.d = s.d ∧
      t.chainL = s.chainL ∧ t.cinL = s.cinL ∧ t.inputs = s.inputs

/-- R215, R66: in flight, at every edge with rst = 0, whatever access the host makes in it or none: KEY and DIN cannot change; DOUT and IV keep their values and DONE
stays 0 while BUSY stays 1, and they change only in the edge that clears BUSY, which also sets DONE; RKDATA reads 0 in
phase KS. STATUS, CTRL and RKDATA may change in flight (RK_VALID at the last KS edge, the host's own writes). -/
def Obligations.CommandInFlight : Prop :=
  ∀ (access : Option Instr) (s : State), Coherent s → s.busy = true →
    ∃ t, edgeWith access s = .next t ∧ t.key = s.key ∧ t.din = s.din ∧
      (t.busy = true → t.dout = s.dout ∧ t.iv = s.iv ∧ t.done = false) ∧
      (t.busy = false → t.done = true ∧ t.rkValid = true) ∧
      (s.phase = .ks → readReg s .rkdata = 0#64)

/-- R21 to R24, R27, R30, R251 and R196's last remark: who may change a register. At every edge with rst = 0, with
any access or none, in any state: KEY and DIN
change only by their own accepted write, IV by its own write or the completion of a CBC command, DOUT only by the
completion of a block command, the round-key store only by the derivator, and CTRL only by its own write. -/
def Obligations.RegistersChangeOnlyByTheirCauses : Prop :=
  ∀ (access : Option Instr) (s : State), ∃ t, edgeWith access s = .next t ∧
    (t.key ≠ s.key → s.busy = false ∧ ∃ v, access = some (.wr .key v)) ∧
    (t.din ≠ s.din → s.busy = false ∧ ∃ v, access = some (.wr .din v)) ∧
    (t.iv ≠ s.iv → (s.busy = false ∧ ∃ v, access = some (.wr .iv v)) ∨
      (s.phase = .rnd ∧ s.cnt = 16#5 ∧ (s.opL = 0x3#4 ∨ s.opL = 0x4#4))) ∧
    (t.dout ≠ s.dout → s.phase = .rnd ∧ s.cnt = 16#5 ∧ 1 ≤ s.opL.toNat ∧ s.opL.toNat ≤ 4) ∧
    (t.rk ≠ s.rk → s.phase = .ks) ∧
    (t.irqEn ≠ s.irqEn ∨ t.rkSel ≠ s.rkSel → ∃ v, access = some (.wr .ctrl v))

/-- R30, R31, R33, R148, R171: the invariant holds after reset. -/
def Obligations.ResetIsCoherent : Prop :=
  Coherent State.reset

/-- R30, R31, R33, R148, R171: every step keeps the invariant: RK = KS(KEY) while RK_VALID = 1, cnt in 1..16 exactly while
BUSY = 1, and the datapath holds the subkeys and rounds done so far. -/
def Obligations.StepKeepsCoherent : Prop :=
  ∀ s t : State, Coherent s → step s = .next t → Coherent t

/-- R217, R219 to R222, R224, R290: the contract of the five commands. Accepted in a coherent state with BUSY = 0, a command
completes exactly N steps later, N from R290, whatever accesses the host makes meanwhile with rst = 0; BUSY reads 1 and
DOUT and IV are the old ones until then, and the results are the source's functions of the operands at acceptance. -/
def Obligations.CommandContract : Prop :=
  ∀ (s : State) (ign : Ignored) (i : Instr) (n : Nat) (dout iv : Block),
    (i, n, dout, iv) ∈
      [(Instr.ecbEnc ign, (if s.rkValid then 16 else 32), encrypt s.din s.key, s.iv),
       (Instr.ecbDec ign, (if s.rkValid then 16 else 32), decrypt s.din s.key, s.iv),
       (Instr.cbcEnc ign, (if s.rkValid then 16 else 32), encrypt (s.din ^^^ s.iv) s.key, encrypt (s.din ^^^ s.iv) s.key),
       (Instr.cbcDec ign, (if s.rkValid then 16 else 32), decrypt s.din s.key ^^^ s.iv, s.din),
       (Instr.keysched ign, 16, s.dout, s.iv)] →
    Coherent s → s.busy = false → noResetFor n s →
    ∃ accepted t, exec i s = .next accepted ∧ runFor n accepted = .next t ∧
      (∀ k < n, ∃ u, runFor k accepted = .next u ∧ u.busy = true ∧ u.dout = s.dout ∧ u.iv = s.iv) ∧
      t.busy = false ∧ t.done = true ∧ t.rkValid = true ∧ t.rk = keySchedule s.key ∧
      t.dout = dout ∧ t.iv = iv ∧ t.key = s.key ∧ t.din = s.din

/-- R100, R290: POLL right after an accepted command reads BUSY = 1 exactly N times and then BUSY = 0. -/
def Obligations.PollReadsBusyLatencyTimes : Prop :=
  ∀ (s : State) (op : CmdName), Coherent s → s.busy = false → op ≠ .nop →
    ∃ accepted t reads last, exec op.instr s = .next accepted ∧
      pollStatus pollFuel accepted = some (t, reads ++ [last]) ∧
      reads.length = (if op = .keysched ∨ s.rkValid = true then 16 else 32) ∧
      (∀ v ∈ reads, v.getLsbD 0 = true) ∧ last.getLsbD 0 = false ∧ t.busy = false

/-- R290: the latency table, row by row, and that it is the machine's: a CMD write of any opcode at rest is followed by
BUSY = 1 in exactly N cycles (none for NOP and the reserved opcodes), whatever accesses the host makes in them with
rst = 0. -/
def Obligations.LatencyTable : Prop :=
  (∀ op : Opcode, 1 ≤ op.toNat → op.toNat ≤ 4 →
    (ksEdges op true = 0 ∧ rndEdges op = 16 ∧ latency op true = 16) ∧ ksEdges op false = 16 ∧ latency op false = 32) ∧
  (∀ v : Bool, ksEdges 0x5#4 v = 16 ∧ rndEdges 0x5#4 = 0 ∧ latency 0x5#4 v = 16) ∧
  (∀ (op : Opcode) (v : Bool), op.toNat = 0 ∨ 6 ≤ op.toNat → ksEdges op v = 0 ∧ rndEdges op = 0 ∧ latency op v = 0) ∧
  ∀ (w : Block) (s : State), Coherent s → s.busy = false → noResetFor (latency (cmdOp w) s.rkValid) s →
    ∃ t, exec (decodeCmd w) s = .next t ∧
      (∀ k < latency (cmdOp w) s.rkValid, ∃ u, runFor k t = .next u ∧ u.busy = true) ∧
      ∃ u, runFor (latency (cmdOp w) s.rkValid) t = .next u ∧ u.busy = false

/-- R32, R216 and spec/93_implementation_defined.md U1, U3: nothing a host can observe, in any number of cycles, depends on
the round-key store while RK_VALID = 0 or on any hidden register at rest. The two states also may differ in the model's
own count of free values, so no observation rests on what a free value is. -/
def Obligations.HiddenStateIsUnobservable : Prop :=
  ∀ (n : Nat) (s t : State), Coherent s → Coherent t → s.busy = false → t.busy = false →
    s.key = t.key → s.iv = t.iv → s.din = t.din → s.dout = t.dout → s.done = t.done → s.rkValid = t.rkValid →
    s.errCmd = t.errCmd → s.errBusy = t.errBusy → s.irqEn = t.irqEn → s.rkSel = t.rkSel → s.inputs = t.inputs →
    observe n s = observe n t

/-! The pure functions (spec/40_tables.md to spec/43_cbc.md). -/

/-- V1 of spec/95_test_vectors.md, quoted in R120: the source's known-answer vector, both ways. -/
def Obligations.KnownAnswerVector : Prop :=
  encrypt 0x0123456789ABCDEF#64 0x133457799BBCDFF1#64 = 0x85E813540F0AB405#64 ∧
  decrypt 0x85E813540F0AB405#64 0x133457799BBCDFF1#64 = 0x0123456789ABCDEF#64

/-- R127, R138 and the facts R123 to R126 state of their tables: which input bits each table reads, how often, and the
rotation amounts. -/
def Obligations.TableFacts : Prop :=
  (∀ b, 1 ≤ b → b ≤ 64 → ipTable.count b = 1 ∧ fpTable.count b = 1) ∧
  (∀ b, 1 ≤ b → b ≤ 32 → roundPermTable.count b = 1 ∧
    expansionTable.count b = (if b ∈ [1, 4, 5, 8, 9, 12, 13, 16, 17, 20, 21, 24, 25, 28, 29, 32] then 2 else 1)) ∧
  (∀ b, 1 ≤ b → b ≤ 64 → pc1Table.count b = (if b % 8 = 0 then 0 else 1)) ∧
  (∀ b, 1 ≤ b → b ≤ 56 → pc2Table.count b = (if b ∈ [9, 18, 22, 25, 35, 38, 43, 54] then 0 else 1)) ∧
  (∀ b ∈ pc2Table.take 24, b ≤ 28) ∧ (∀ b ∈ pc2Table.drop 24, 29 ≤ b) ∧
  (∀ r, 1 ≤ r → r ≤ 16 → shiftAmount r = (if r ∈ [1, 2, 9, 16] then 1 else 2)) ∧
  ipTable.length = 64 ∧ fpTable.length = 64 ∧ expansionTable.length = 48 ∧ roundPermTable.length = 32 ∧
  pc1Table.length = 56 ∧ pc2Table.length = 48

/-- R122, R138: IP and FP are inverse to each other. -/
def Obligations.InitialAndFinalPermutationsInverse : Prop :=
  ∀ x : Block, fp (ip x) = x ∧ ip (fp x) = x

/-- R128, R138: every row of every S-box is a permutation of 0..15. -/
def Obligations.SboxRowsArePermutations : Prop :=
  ∀ k ∈ [1, 2, 3, 4, 5, 6, 7, 8], (sboxTable k).length = 4 ∧
    ∀ row ∈ sboxTable k, row.length = 16 ∧ ∀ v < 16, v ∈ row

/-- R174: lane j of the substitution layer reads bits 53-6j : 48-6j and writes bits 35-4j : 32-4j, through S-box j alone. -/
def Obligations.SubstitutionIsEightLanes : Prop :=
  ∀ (x : BitVec 48) (j : Nat), 1 ≤ j → j ≤ 8 →
    (substitute x).extractLsb' (32 - 4 * j) 4 = sbox j (x.extractLsb' (48 - 6 * j) 6)

/-- R127, R148: the rotations add up to 28, so after round 16 both halves are back at C0 and D0. -/
def Obligations.HalvesReturnAfterSixteenRotations : Prop :=
  ∀ key : Block, halvesAt key 16 = halvesAt key 0

/-- R149: the key schedule of the all-zero and of the all-one key. -/
def Obligations.KeyScheduleAtTheExtremes : Prop :=
  ∀ r, 1 ≤ r → r ≤ 16 →
    rkRead (keySchedule 0#64) r = 0#48 ∧ rkRead (keySchedule 0xFFFFFFFFFFFFFFFF#64) r = 0xFFFFFFFFFFFF#48

/-- R150: keys that differ only in DES bits 8, 16, ..., 64 have the same round keys, and so the same results. -/
def Obligations.ParityBitsDoNotMatter : Prop :=
  ∀ a b : Block, a &&& 0xFEFEFEFEFEFEFEFE#64 = b &&& 0xFEFEFEFEFEFEFEFE#64 →
    keySchedule a = keySchedule b ∧ ∀ x, encrypt x a = encrypt x b ∧ decrypt x a = decrypt x b

/-- R151: when C0 and D0 are each all zeros or all ones, all round keys are equal and encryption is decryption. -/
def Obligations.EqualSubkeyKeys : Prop :=
  ∀ key : Block,
    ((halvesAt key 0).1 = 0#28 ∨ (halvesAt key 0).1 = 0xFFFFFFF#28) →
    ((halvesAt key 0).2 = 0#28 ∨ (halvesAt key 0).2 = 0xFFFFFFF#28) →
    (∀ r, 1 ≤ r → r ≤ 16 → subkey key r = subkey key 1) ∧ ∀ x, encrypt x key = decrypt x key

/-- R172: decryption undoes encryption and encryption undoes decryption, so for a fixed key blocks that differ encrypt to
blocks that differ. -/
def Obligations.DecryptInvertsEncrypt : Prop :=
  ∀ key : Block, (∀ b, decrypt (encrypt b key) key = b) ∧ (∀ b, encrypt (decrypt b key) key = b) ∧
    ∀ a b, a ≠ b → encrypt a key ≠ encrypt b key

/-- R175: complementing block and key complements the result. -/
def Obligations.Complementation : Prop :=
  ∀ b key : Block, encrypt (~~~b) (~~~key) = ~~~(encrypt b key) ∧ decrypt (~~~b) (~~~key) = ~~~(decrypt b key)

/-- R194, R195, R197, R198: CBC decryption undoes CBC encryption, lengths are kept, and the empty sequence gives the empty sequence. -/
def Obligations.CbcRoundTrip : Prop :=
  ∀ (blocks : List Block) (key iv : Block),
    cbcDecrypt (cbcEncrypt blocks key iv) key iv = blocks ∧
    (cbcEncrypt blocks key iv).length = blocks.length ∧ (cbcDecrypt blocks key iv).length = blocks.length ∧
    cbcEncrypt [] key iv = [] ∧ cbcDecrypt [] key iv = []

/-- R201: a sequence may be stopped after any block and gone on with from the saved IV: the two parts give what the whole
gives. The saved IV is the last ciphertext of the first part, which CbcSequenceByCommands says the IV register holds. -/
def Obligations.CbcSaveAndResume : Prop :=
  ∀ (first rest : List Block) (key iv : Block),
    cbcEncrypt (first ++ rest) key iv =
      cbcEncrypt first key iv ++ cbcEncrypt rest key ((cbcEncrypt first key iv).getLastD iv) ∧
    cbcDecrypt (first ++ rest) key iv = cbcDecrypt first key iv ++ cbcDecrypt rest key (first.getLastD iv)

/-- R199: when two sequences differ in one block only, the ciphertexts are equal before it and differ in every block from it on. -/
def Obligations.CbcChainingDependency : Prop :=
  ∀ (before after : List Block) (x y key iv : Block), x ≠ y →
    (∀ j < before.length,
      (cbcEncrypt (before ++ x :: after) key iv)[j]? = (cbcEncrypt (before ++ y :: after) key iv)[j]?) ∧
    (∀ j, before.length ≤ j → j < before.length + 1 + after.length →
      (cbcEncrypt (before ++ x :: after) key iv)[j]? ≠ (cbcEncrypt (before ++ y :: after) key iv)[j]?)

/-- R200: plaintext block i depends only on ciphertext blocks i and i - 1, or on the IV when i = 0. -/
def Obligations.CbcDecryptionLocality : Prop :=
  ∀ (ciphers : List Block) (key iv : Block) (i : Nat) (h : i < ciphers.length),
    (cbcDecrypt ciphers key iv)[i]? =
      some (decrypt ciphers[i] key ^^^ (if i = 0 then iv else ciphers.getD (i - 1) 0#64))

/-- R196: a host that plays one CBC line per block (write DIN, the command, POLL, read DOUT) from a coherent state at rest
reads from DOUT exactly cbcEncrypt or cbcDecrypt of the blocks, for KEY and IV as they stood at the start, and IV ends
as the last ciphertext (as it stood when there is no block). -/
def Obligations.CbcSequenceByCommands : Prop :=
  ∀ (blocks : List Block) (s : State), Coherent s → s.busy = false →
    (∃ t, runBlocks .cbcEnc blocks s = some (t, cbcEncrypt blocks s.key s.iv) ∧
      t.iv = (cbcEncrypt blocks s.key s.iv).getLastD s.iv ∧ t.key = s.key ∧ t.busy = false) ∧
    (∃ t, runBlocks .cbcDec blocks s = some (t, cbcDecrypt blocks s.key s.iv) ∧
      t.iv = blocks.getLastD s.iv ∧ t.key = s.key ∧ t.busy = false)

/-! The host's side (spec/20_memory.md, spec/30_encoding.md). -/

/-- R64, R65: bytes are packed big-endian, and an adapter maps register i at byte offset 8*i and turns every other access away. -/
def Obligations.HostPackingAndAdapter : Prop :=
  (∀ (bytes : Vector (BitVec 8) 8) (j : Nat) (h : j < 8),
    (packBlock bytes).extractLsb' (56 - 8 * j) 8 = bytes[j]) ∧
  (∀ reg : Reg, adapterReg (8 * reg.idx.toNat) 8 = some reg) ∧
  (∀ offset width, adapterReg offset width ≠ none → width = 8 ∧ offset % 8 = 0 ∧ offset < 64)

/-- R100, R26, R27: CLRST and SELRK r, e are each one access, so one cycle. In every state, busy or not, CLRST clears the three
W1C flags over the engine's own edge (DONE stays set if a command completes in it, R35), and SELRK selects RK[r] and sets
IRQ_EN to e. The cycle's bus_rdata, 0 in a write (R63), is kept in `idleCycle s` (log 9). -/
def Obligations.ClrstAndSelrk : Prop :=
  HostLine.expand .clrst = [.access (.wr .status 0x1A#64)] ∧
  (∀ (sel : BitVec 4) (e : Bool),
    HostLine.expand (.selrk sel e) = [.access (.wr .ctrl (BitVec.ofNat 64 (16 * sel.toNat + e.toNat)))]) ∧
  (∀ s : State, runHostProgram [.clrst] s =
    some ({ idleCycle s with done := s.busy && !(idleCycle s).busy, errCmd := false, errBusy := false }, [])) ∧
  (∀ (s : State) (sel : BitVec 4) (e : Bool),
    runHostProgram [.selrk sel e] s = some ({ idleCycle s with rkSel := sel, irqEn := e }, []))
end

