-- ==== Sys2Proof/Laws/Decode.lean ====
section
/-! SUPPORT. The fields of a transaction word and of a command word, read back from the words built of them, and the other way round. -/

namespace Sys2Proof

@[simp] theorem Reg.ofIdx_idx (r : Reg) : Reg.ofIdx r.idx = r := by cases r <;> rfl

@[simp] theorem Reg.idx_ofIdx (i : BitVec 3) : (Reg.ofIdx i).idx = i := by revert i; decide

@[simp] theorem txWe_txWord (we : BitVec 1) (idx : BitVec 3) (data : Block) :
    txWe (txWord we idx data) = we.getLsbD 0 := by
  unfold txWe txWord
  rw [BitVec.getLsbD_append, BitVec.getLsbD_append]
  simp

@[simp] theorem txIdx_txWord (we : BitVec 1) (idx : BitVec 3) (data : Block) :
    txIdx (txWord we idx data) = idx := by
  ext i hi
  simp only [txIdx, txWord, BitVec.getElem_extractLsb', BitVec.getLsbD_append]
  have h1 : ¬ (64 + i < 64) := by omega
  simp [h1, hi]

@[simp] theorem txData_txWord (we : BitVec 1) (idx : BitVec 3) (data : Block) :
    txData (txWord we idx data) = data := by
  ext i hi
  simp only [txData, txWord, BitVec.getElem_extractLsb', BitVec.getLsbD_append]
  simp [hi]

/-- A transaction word is made of its fields (spec/30_encoding.md R91). -/
theorem txWord_fields (w : TxWord) : txWord (BitVec.ofBool (txWe w)) (txIdx w) (txData w) = w := by
  apply BitVec.eq_of_getLsbD_eq
  intro i hi
  unfold txWord
  rw [BitVec.getLsbD_append, BitVec.getLsbD_append]
  by_cases h1 : i < 64
  · simp [h1, txData]
  · by_cases h2 : i - 64 < 3
    · have : 64 + (i - 64) = i := by omega
      simp [h1, h2, this, txIdx]
    · have : i = 67 := by omega
      subst this
      simp [txWe]

@[simp] theorem cmdOp_cmdWord (op : Opcode) (ign : Ignored) : cmdOp (cmdWord op ign) = op := by
  ext i hi
  simp only [cmdOp, cmdWord, BitVec.getElem_extractLsb', BitVec.getLsbD_append]
  simp [hi]

@[simp] theorem cmdIgnored_cmdWord (op : Opcode) (ign : Ignored) : cmdIgnored (cmdWord op ign) = ign := by
  ext i hi
  simp only [cmdIgnored, cmdWord, BitVec.getElem_extractLsb', BitVec.getLsbD_append]
  simp [BitVec.getLsbD_eq_getElem, hi]

/-- A command word is made of its opcode and its ignored bits (R95). -/
theorem cmdWord_fields (w : Block) : cmdWord (cmdOp w) (cmdIgnored w) = w := by
  apply BitVec.eq_of_getLsbD_eq
  intro i hi
  unfold cmdWord
  rw [BitVec.getLsbD_append]
  by_cases h1 : i < 4
  · simp [h1, cmdOp]
  · have : 4 + (i - 4) = i := by omega
    simp [h1, this, cmdIgnored]
    omega

/-- A command word whose opcode is one of the six defined ones (R96). -/
theorem decodeCmd_of_op (w : Block) :
    (cmdOp w = opNop → decodeCmd w = .nop (cmdIgnored w)) ∧
    (cmdOp w = opEcbEnc → decodeCmd w = .ecbEnc (cmdIgnored w)) ∧
    (cmdOp w = opEcbDec → decodeCmd w = .ecbDec (cmdIgnored w)) ∧
    (cmdOp w = opCbcEnc → decodeCmd w = .cbcEnc (cmdIgnored w)) ∧
    (cmdOp w = opCbcDec → decodeCmd w = .cbcDec (cmdIgnored w)) ∧
    (cmdOp w = opKeysched → decodeCmd w = .keysched (cmdIgnored w)) := by
  refine ⟨?_, ?_, ?_, ?_, ?_, ?_⟩ <;> intro h <;> simp [decodeCmd, h, opNop, opEcbEnc, opEcbDec, opCbcEnc, opCbcDec, opKeysched]

/-- Every opcode is one of the six defined ones, or 0x6 or 0x7, or at least 0x8 (R96, R97). -/
theorem op_cases (op : Opcode) :
    op = opNop ∨ op = opEcbEnc ∨ op = opEcbDec ∨ op = opCbcEnc ∨ op = opCbcDec ∨ op = opKeysched ∨
    (∃ low : BitVec 1, op = 0b011#3 ++ low) ∨ (∃ low : BitVec 3, op = 0b1#1 ++ low) := by
  revert op; decide

/-- A read word with DATA 0 decodes to the read of its register (R91). -/
theorem decode_read (idx : BitVec 3) : decode (txWord 0#1 idx 0#64) = .ok (.rd (Reg.ofIdx idx)) := by
  simp [decode]

/-- A write word never fails to decode (R97: every combination of WE and IDX is legal). -/
theorem decode_write (idx : BitVec 3) (v : Block) :
    decode (txWord 1#1 idx v) =
      .ok (if Reg.ofIdx idx = .cmd then decodeCmd v else .wr (Reg.ofIdx idx) v) := by
  simp only [decode, txWe_txWord, txIdx_txWord, txData_txWord]
  cases Reg.ofIdx idx <;> rfl

end Sys2Proof
end

