-- ==== Sys2Proof/Laws/RkStore.lean ====
section
/-! SUPPORT. The round-key store (spec/10_state.md R30): reading after writing, and equality entry by entry. -/

namespace Sys2Proof.Machine

/-- In the spec's range entry r stands at place r - 1. -/
theorem rkPlace_of_range {r : Nat} (h1 : 1 ≤ r) (h2 : r ≤ 16) : rkPlace r = r - 1 := by
  unfold rkPlace; omega

/-- Reading an entry right after writing it. -/
@[simp] theorem rkRead_rkWrite_same (rk : RkStore) (r : Nat) (k : RoundKey) : rkRead (rkWrite rk r k) r = k := by
  simp [rkRead, rkWrite]

/-- Writing an entry leaves every other entry alone. -/
theorem rkRead_rkWrite_other (rk : RkStore) {r q : Nat} (k : RoundKey) (h : rkPlace r ≠ rkPlace q) :
    rkRead (rkWrite rk r k) q = rkRead rk q := by
  simp [rkRead, rkWrite, h]

/-- Two stores with the same sixteen entries are equal. -/
theorem rkStore_ext {a b : RkStore} (h : ∀ r, 1 ≤ r → r ≤ 16 → rkRead a r = rkRead b r) : a = b := by
  apply Vector.ext
  intro i hi
  have := h (i + 1) (by omega) (by omega)
  simpa [rkRead, rkPlace_of_range (by omega : 1 ≤ i + 1) (by omega)] using this

/-- Entry r of KS(key) is K_r (spec/41_key_schedule.md R145). -/
theorem rkRead_keySchedule (key : Block) {r : Nat} (h1 : 1 ≤ r) (h2 : r ≤ 16) :
    rkRead (keySchedule key) r = subkey key r := by
  simp only [rkRead, keySchedule, Vector.getElem_ofFn, rkPlace_of_range h1 h2]
  congr 1; omega

end Sys2Proof.Machine
end

