-- ==== Sys2Proof/Laws/State.lean ====
section
/-! SUPPORT. One lemma per field per named update of State, true by rfl, so that no later proof unfolds a record update. -/

namespace Sys2Proof.Machine

@[simp] theorem setDone_key (t : State) : (setDone t).key = t.key := rfl
@[simp] theorem setDone_iv (t : State) : (setDone t).iv = t.iv := rfl
@[simp] theorem setDone_din (t : State) : (setDone t).din = t.din := rfl
@[simp] theorem setDone_dout (t : State) : (setDone t).dout = t.dout := rfl
@[simp] theorem setDone_done (t : State) : (setDone t).done = true := rfl
@[simp] theorem setDone_rkValid (t : State) : (setDone t).rkValid = t.rkValid := rfl
@[simp] theorem setDone_errCmd (t : State) : (setDone t).errCmd = t.errCmd := rfl
@[simp] theorem setDone_errBusy (t : State) : (setDone t).errBusy = t.errBusy := rfl
@[simp] theorem setDone_irqEn (t : State) : (setDone t).irqEn = t.irqEn := rfl
@[simp] theorem setDone_rkSel (t : State) : (setDone t).rkSel = t.rkSel := rfl
@[simp] theorem setDone_rk (t : State) : (setDone t).rk = t.rk := rfl
@[simp] theorem setDone_phase (t : State) : (setDone t).phase = t.phase := rfl
@[simp] theorem setDone_cnt (t : State) : (setDone t).cnt = t.cnt := rfl
@[simp] theorem setDone_opL (t : State) : (setDone t).opL = t.opL := rfl
@[simp] theorem setDone_c (t : State) : (setDone t).c = t.c := rfl
@[simp] theorem setDone_d (t : State) : (setDone t).d = t.d := rfl
@[simp] theorem setDone_l (t : State) : (setDone t).l = t.l := rfl
@[simp] theorem setDone_r (t : State) : (setDone t).r = t.r := rfl
@[simp] theorem setDone_chainL (t : State) : (setDone t).chainL = t.chainL := rfl
@[simp] theorem setDone_cinL (t : State) : (setDone t).cinL = t.cinL := rfl
@[simp] theorem setDone_busRdata (t : State) : (setDone t).busRdata = t.busRdata := rfl
@[simp] theorem setDone_inputs (t : State) : (setDone t).inputs = t.inputs := rfl
@[simp] theorem setDone_freeCount (t : State) : (setDone t).freeCount = t.freeCount := rfl

@[simp] theorem raiseErrCmd_key (t : State) : (raiseErrCmd t).key = t.key := rfl
@[simp] theorem raiseErrCmd_iv (t : State) : (raiseErrCmd t).iv = t.iv := rfl
@[simp] theorem raiseErrCmd_din (t : State) : (raiseErrCmd t).din = t.din := rfl
@[simp] theorem raiseErrCmd_dout (t : State) : (raiseErrCmd t).dout = t.dout := rfl
@[simp] theorem raiseErrCmd_done (t : State) : (raiseErrCmd t).done = t.done := rfl
@[simp] theorem raiseErrCmd_rkValid (t : State) : (raiseErrCmd t).rkValid = t.rkValid := rfl
@[simp] theorem raiseErrCmd_errCmd (t : State) : (raiseErrCmd t).errCmd = true := rfl
@[simp] theorem raiseErrCmd_errBusy (t : State) : (raiseErrCmd t).errBusy = t.errBusy := rfl
@[simp] theorem raiseErrCmd_irqEn (t : State) : (raiseErrCmd t).irqEn = t.irqEn := rfl
@[simp] theorem raiseErrCmd_rkSel (t : State) : (raiseErrCmd t).rkSel = t.rkSel := rfl
@[simp] theorem raiseErrCmd_rk (t : State) : (raiseErrCmd t).rk = t.rk := rfl
@[simp] theorem raiseErrCmd_phase (t : State) : (raiseErrCmd t).phase = t.phase := rfl
@[simp] theorem raiseErrCmd_cnt (t : State) : (raiseErrCmd t).cnt = t.cnt := rfl
@[simp] theorem raiseErrCmd_opL (t : State) : (raiseErrCmd t).opL = t.opL := rfl
@[simp] theorem raiseErrCmd_c (t : State) : (raiseErrCmd t).c = t.c := rfl
@[simp] theorem raiseErrCmd_d (t : State) : (raiseErrCmd t).d = t.d := rfl
@[simp] theorem raiseErrCmd_l (t : State) : (raiseErrCmd t).l = t.l := rfl
@[simp] theorem raiseErrCmd_r (t : State) : (raiseErrCmd t).r = t.r := rfl
@[simp] theorem raiseErrCmd_chainL (t : State) : (raiseErrCmd t).chainL = t.chainL := rfl
@[simp] theorem raiseErrCmd_cinL (t : State) : (raiseErrCmd t).cinL = t.cinL := rfl
@[simp] theorem raiseErrCmd_busRdata (t : State) : (raiseErrCmd t).busRdata = t.busRdata := rfl
@[simp] theorem raiseErrCmd_inputs (t : State) : (raiseErrCmd t).inputs = t.inputs := rfl
@[simp] theorem raiseErrCmd_freeCount (t : State) : (raiseErrCmd t).freeCount = t.freeCount := rfl

@[simp] theorem raiseErrBusy_key (t : State) : (raiseErrBusy t).key = t.key := rfl
@[simp] theorem raiseErrBusy_iv (t : State) : (raiseErrBusy t).iv = t.iv := rfl
@[simp] theorem raiseErrBusy_din (t : State) : (raiseErrBusy t).din = t.din := rfl
@[simp] theorem raiseErrBusy_dout (t : State) : (raiseErrBusy t).dout = t.dout := rfl
@[simp] theorem raiseErrBusy_done (t : State) : (raiseErrBusy t).done = t.done := rfl
@[simp] theorem raiseErrBusy_rkValid (t : State) : (raiseErrBusy t).rkValid = t.rkValid := rfl
@[simp] theorem raiseErrBusy_errCmd (t : State) : (raiseErrBusy t).errCmd = t.errCmd := rfl
@[simp] theorem raiseErrBusy_errBusy (t : State) : (raiseErrBusy t).errBusy = true := rfl
@[simp] theorem raiseErrBusy_irqEn (t : State) : (raiseErrBusy t).irqEn = t.irqEn := rfl
@[simp] theorem raiseErrBusy_rkSel (t : State) : (raiseErrBusy t).rkSel = t.rkSel := rfl
@[simp] theorem raiseErrBusy_rk (t : State) : (raiseErrBusy t).rk = t.rk := rfl
@[simp] theorem raiseErrBusy_phase (t : State) : (raiseErrBusy t).phase = t.phase := rfl
@[simp] theorem raiseErrBusy_cnt (t : State) : (raiseErrBusy t).cnt = t.cnt := rfl
@[simp] theorem raiseErrBusy_opL (t : State) : (raiseErrBusy t).opL = t.opL := rfl
@[simp] theorem raiseErrBusy_c (t : State) : (raiseErrBusy t).c = t.c := rfl
@[simp] theorem raiseErrBusy_d (t : State) : (raiseErrBusy t).d = t.d := rfl
@[simp] theorem raiseErrBusy_l (t : State) : (raiseErrBusy t).l = t.l := rfl
@[simp] theorem raiseErrBusy_r (t : State) : (raiseErrBusy t).r = t.r := rfl
@[simp] theorem raiseErrBusy_chainL (t : State) : (raiseErrBusy t).chainL = t.chainL := rfl
@[simp] theorem raiseErrBusy_cinL (t : State) : (raiseErrBusy t).cinL = t.cinL := rfl
@[simp] theorem raiseErrBusy_busRdata (t : State) : (raiseErrBusy t).busRdata = t.busRdata := rfl
@[simp] theorem raiseErrBusy_inputs (t : State) : (raiseErrBusy t).inputs = t.inputs := rfl
@[simp] theorem raiseErrBusy_freeCount (t : State) : (raiseErrBusy t).freeCount = t.freeCount := rfl

@[simp] theorem clearStatus_key (v : Block) (t : State) : (clearStatus v t).key = t.key := rfl
@[simp] theorem clearStatus_iv (v : Block) (t : State) : (clearStatus v t).iv = t.iv := rfl
@[simp] theorem clearStatus_din (v : Block) (t : State) : (clearStatus v t).din = t.din := rfl
@[simp] theorem clearStatus_dout (v : Block) (t : State) : (clearStatus v t).dout = t.dout := rfl
@[simp] theorem clearStatus_done (v : Block) (t : State) : (clearStatus v t).done = (t.done && !v.getLsbD 1) := rfl
@[simp] theorem clearStatus_rkValid (v : Block) (t : State) : (clearStatus v t).rkValid = t.rkValid := rfl
@[simp] theorem clearStatus_errCmd (v : Block) (t : State) : (clearStatus v t).errCmd = (t.errCmd && !v.getLsbD 3) := rfl
@[simp] theorem clearStatus_errBusy (v : Block) (t : State) : (clearStatus v t).errBusy = (t.errBusy && !v.getLsbD 4) := rfl
@[simp] theorem clearStatus_irqEn (v : Block) (t : State) : (clearStatus v t).irqEn = t.irqEn := rfl
@[simp] theorem clearStatus_rkSel (v : Block) (t : State) : (clearStatus v t).rkSel = t.rkSel := rfl
@[simp] theorem clearStatus_rk (v : Block) (t : State) : (clearStatus v t).rk = t.rk := rfl
@[simp] theorem clearStatus_phase (v : Block) (t : State) : (clearStatus v t).phase = t.phase := rfl
@[simp] theorem clearStatus_cnt (v : Block) (t : State) : (clearStatus v t).cnt = t.cnt := rfl
@[simp] theorem clearStatus_opL (v : Block) (t : State) : (clearStatus v t).opL = t.opL := rfl
@[simp] theorem clearStatus_c (v : Block) (t : State) : (clearStatus v t).c = t.c := rfl
@[simp] theorem clearStatus_d (v : Block) (t : State) : (clearStatus v t).d = t.d := rfl
@[simp] theorem clearStatus_l (v : Block) (t : State) : (clearStatus v t).l = t.l := rfl
@[simp] theorem clearStatus_r (v : Block) (t : State) : (clearStatus v t).r = t.r := rfl
@[simp] theorem clearStatus_chainL (v : Block) (t : State) : (clearStatus v t).chainL = t.chainL := rfl
@[simp] theorem clearStatus_cinL (v : Block) (t : State) : (clearStatus v t).cinL = t.cinL := rfl
@[simp] theorem clearStatus_busRdata (v : Block) (t : State) : (clearStatus v t).busRdata = t.busRdata := rfl
@[simp] theorem clearStatus_inputs (v : Block) (t : State) : (clearStatus v t).inputs = t.inputs := rfl
@[simp] theorem clearStatus_freeCount (v : Block) (t : State) : (clearStatus v t).freeCount = t.freeCount := rfl

@[simp] theorem loadKey_key (v : Block) (t : State) : (loadKey v t).key = v := rfl
@[simp] theorem loadKey_iv (v : Block) (t : State) : (loadKey v t).iv = t.iv := rfl
@[simp] theorem loadKey_din (v : Block) (t : State) : (loadKey v t).din = t.din := rfl
@[simp] theorem loadKey_dout (v : Block) (t : State) : (loadKey v t).dout = t.dout := rfl
@[simp] theorem loadKey_done (v : Block) (t : State) : (loadKey v t).done = t.done := rfl
@[simp] theorem loadKey_rkValid (v : Block) (t : State) : (loadKey v t).rkValid = false := rfl
@[simp] theorem loadKey_errCmd (v : Block) (t : State) : (loadKey v t).errCmd = t.errCmd := rfl
@[simp] theorem loadKey_errBusy (v : Block) (t : State) : (loadKey v t).errBusy = t.errBusy := rfl
@[simp] theorem loadKey_irqEn (v : Block) (t : State) : (loadKey v t).irqEn = t.irqEn := rfl
@[simp] theorem loadKey_rkSel (v : Block) (t : State) : (loadKey v t).rkSel = t.rkSel := rfl
@[simp] theorem loadKey_rk (v : Block) (t : State) : (loadKey v t).rk = t.rk := rfl
@[simp] theorem loadKey_phase (v : Block) (t : State) : (loadKey v t).phase = t.phase := rfl
@[simp] theorem loadKey_cnt (v : Block) (t : State) : (loadKey v t).cnt = t.cnt := rfl
@[simp] theorem loadKey_opL (v : Block) (t : State) : (loadKey v t).opL = t.opL := rfl
@[simp] theorem loadKey_c (v : Block) (t : State) : (loadKey v t).c = t.c := rfl
@[simp] theorem loadKey_d (v : Block) (t : State) : (loadKey v t).d = t.d := rfl
@[simp] theorem loadKey_l (v : Block) (t : State) : (loadKey v t).l = t.l := rfl
@[simp] theorem loadKey_r (v : Block) (t : State) : (loadKey v t).r = t.r := rfl
@[simp] theorem loadKey_chainL (v : Block) (t : State) : (loadKey v t).chainL = t.chainL := rfl
@[simp] theorem loadKey_cinL (v : Block) (t : State) : (loadKey v t).cinL = t.cinL := rfl
@[simp] theorem loadKey_busRdata (v : Block) (t : State) : (loadKey v t).busRdata = t.busRdata := rfl
@[simp] theorem loadKey_inputs (v : Block) (t : State) : (loadKey v t).inputs = t.inputs := rfl
@[simp] theorem loadKey_freeCount (v : Block) (t : State) : (loadKey v t).freeCount = t.freeCount := rfl

@[simp] theorem loadIv_key (v : Block) (t : State) : (loadIv v t).key = t.key := rfl
@[simp] theorem loadIv_iv (v : Block) (t : State) : (loadIv v t).iv = v := rfl
@[simp] theorem loadIv_din (v : Block) (t : State) : (loadIv v t).din = t.din := rfl
@[simp] theorem loadIv_dout (v : Block) (t : State) : (loadIv v t).dout = t.dout := rfl
@[simp] theorem loadIv_done (v : Block) (t : State) : (loadIv v t).done = t.done := rfl
@[simp] theorem loadIv_rkValid (v : Block) (t : State) : (loadIv v t).rkValid = t.rkValid := rfl
@[simp] theorem loadIv_errCmd (v : Block) (t : State) : (loadIv v t).errCmd = t.errCmd := rfl
@[simp] theorem loadIv_errBusy (v : Block) (t : State) : (loadIv v t).errBusy = t.errBusy := rfl
@[simp] theorem loadIv_irqEn (v : Block) (t : State) : (loadIv v t).irqEn = t.irqEn := rfl
@[simp] theorem loadIv_rkSel (v : Block) (t : State) : (loadIv v t).rkSel = t.rkSel := rfl
@[simp] theorem loadIv_rk (v : Block) (t : State) : (loadIv v t).rk = t.rk := rfl
@[simp] theorem loadIv_phase (v : Block) (t : State) : (loadIv v t).phase = t.phase := rfl
@[simp] theorem loadIv_cnt (v : Block) (t : State) : (loadIv v t).cnt = t.cnt := rfl
@[simp] theorem loadIv_opL (v : Block) (t : State) : (loadIv v t).opL = t.opL := rfl
@[simp] theorem loadIv_c (v : Block) (t : State) : (loadIv v t).c = t.c := rfl
@[simp] theorem loadIv_d (v : Block) (t : State) : (loadIv v t).d = t.d := rfl
@[simp] theorem loadIv_l (v : Block) (t : State) : (loadIv v t).l = t.l := rfl
@[simp] theorem loadIv_r (v : Block) (t : State) : (loadIv v t).r = t.r := rfl
@[simp] theorem loadIv_chainL (v : Block) (t : State) : (loadIv v t).chainL = t.chainL := rfl
@[simp] theorem loadIv_cinL (v : Block) (t : State) : (loadIv v t).cinL = t.cinL := rfl
@[simp] theorem loadIv_busRdata (v : Block) (t : State) : (loadIv v t).busRdata = t.busRdata := rfl
@[simp] theorem loadIv_inputs (v : Block) (t : State) : (loadIv v t).inputs = t.inputs := rfl
@[simp] theorem loadIv_freeCount (v : Block) (t : State) : (loadIv v t).freeCount = t.freeCount := rfl

@[simp] theorem loadDin_key (v : Block) (t : State) : (loadDin v t).key = t.key := rfl
@[simp] theorem loadDin_iv (v : Block) (t : State) : (loadDin v t).iv = t.iv := rfl
@[simp] theorem loadDin_din (v : Block) (t : State) : (loadDin v t).din = v := rfl
@[simp] theorem loadDin_dout (v : Block) (t : State) : (loadDin v t).dout = t.dout := rfl
@[simp] theorem loadDin_done (v : Block) (t : State) : (loadDin v t).done = t.done := rfl
@[simp] theorem loadDin_rkValid (v : Block) (t : State) : (loadDin v t).rkValid = t.rkValid := rfl
@[simp] theorem loadDin_errCmd (v : Block) (t : State) : (loadDin v t).errCmd = t.errCmd := rfl
@[simp] theorem loadDin_errBusy (v : Block) (t : State) : (loadDin v t).errBusy = t.errBusy := rfl
@[simp] theorem loadDin_irqEn (v : Block) (t : State) : (loadDin v t).irqEn = t.irqEn := rfl
@[simp] theorem loadDin_rkSel (v : Block) (t : State) : (loadDin v t).rkSel = t.rkSel := rfl
@[simp] theorem loadDin_rk (v : Block) (t : State) : (loadDin v t).rk = t.rk := rfl
@[simp] theorem loadDin_phase (v : Block) (t : State) : (loadDin v t).phase = t.phase := rfl
@[simp] theorem loadDin_cnt (v : Block) (t : State) : (loadDin v t).cnt = t.cnt := rfl
@[simp] theorem loadDin_opL (v : Block) (t : State) : (loadDin v t).opL = t.opL := rfl
@[simp] theorem loadDin_c (v : Block) (t : State) : (loadDin v t).c = t.c := rfl
@[simp] theorem loadDin_d (v : Block) (t : State) : (loadDin v t).d = t.d := rfl
@[simp] theorem loadDin_l (v : Block) (t : State) : (loadDin v t).l = t.l := rfl
@[simp] theorem loadDin_r (v : Block) (t : State) : (loadDin v t).r = t.r := rfl
@[simp] theorem loadDin_chainL (v : Block) (t : State) : (loadDin v t).chainL = t.chainL := rfl
@[simp] theorem loadDin_cinL (v : Block) (t : State) : (loadDin v t).cinL = t.cinL := rfl
@[simp] theorem loadDin_busRdata (v : Block) (t : State) : (loadDin v t).busRdata = t.busRdata := rfl
@[simp] theorem loadDin_inputs (v : Block) (t : State) : (loadDin v t).inputs = t.inputs := rfl
@[simp] theorem loadDin_freeCount (v : Block) (t : State) : (loadDin v t).freeCount = t.freeCount := rfl

@[simp] theorem loadCtrl_key (v : Block) (t : State) : (loadCtrl v t).key = t.key := rfl
@[simp] theorem loadCtrl_iv (v : Block) (t : State) : (loadCtrl v t).iv = t.iv := rfl
@[simp] theorem loadCtrl_din (v : Block) (t : State) : (loadCtrl v t).din = t.din := rfl
@[simp] theorem loadCtrl_dout (v : Block) (t : State) : (loadCtrl v t).dout = t.dout := rfl
@[simp] theorem loadCtrl_done (v : Block) (t : State) : (loadCtrl v t).done = t.done := rfl
@[simp] theorem loadCtrl_rkValid (v : Block) (t : State) : (loadCtrl v t).rkValid = t.rkValid := rfl
@[simp] theorem loadCtrl_errCmd (v : Block) (t : State) : (loadCtrl v t).errCmd = t.errCmd := rfl
@[simp] theorem loadCtrl_errBusy (v : Block) (t : State) : (loadCtrl v t).errBusy = t.errBusy := rfl
@[simp] theorem loadCtrl_irqEn (v : Block) (t : State) : (loadCtrl v t).irqEn = v.getLsbD 0 := rfl
@[simp] theorem loadCtrl_rkSel (v : Block) (t : State) : (loadCtrl v t).rkSel = v.extractLsb' 4 4 := rfl
@[simp] theorem loadCtrl_rk (v : Block) (t : State) : (loadCtrl v t).rk = t.rk := rfl
@[simp] theorem loadCtrl_phase (v : Block) (t : State) : (loadCtrl v t).phase = t.phase := rfl
@[simp] theorem loadCtrl_cnt (v : Block) (t : State) : (loadCtrl v t).cnt = t.cnt := rfl
@[simp] theorem loadCtrl_opL (v : Block) (t : State) : (loadCtrl v t).opL = t.opL := rfl
@[simp] theorem loadCtrl_c (v : Block) (t : State) : (loadCtrl v t).c = t.c := rfl
@[simp] theorem loadCtrl_d (v : Block) (t : State) : (loadCtrl v t).d = t.d := rfl
@[simp] theorem loadCtrl_l (v : Block) (t : State) : (loadCtrl v t).l = t.l := rfl
@[simp] theorem loadCtrl_r (v : Block) (t : State) : (loadCtrl v t).r = t.r := rfl
@[simp] theorem loadCtrl_chainL (v : Block) (t : State) : (loadCtrl v t).chainL = t.chainL := rfl
@[simp] theorem loadCtrl_cinL (v : Block) (t : State) : (loadCtrl v t).cinL = t.cinL := rfl
@[simp] theorem loadCtrl_busRdata (v : Block) (t : State) : (loadCtrl v t).busRdata = t.busRdata := rfl
@[simp] theorem loadCtrl_inputs (v : Block) (t : State) : (loadCtrl v t).inputs = t.inputs := rfl
@[simp] theorem loadCtrl_freeCount (v : Block) (t : State) : (loadCtrl v t).freeCount = t.freeCount := rfl

@[simp] theorem latchOperands_key (s : State) (op : Opcode) (t : State) : (latchOperands s op t).key = t.key := rfl
@[simp] theorem latchOperands_iv (s : State) (op : Opcode) (t : State) : (latchOperands s op t).iv = t.iv := rfl
@[simp] theorem latchOperands_din (s : State) (op : Opcode) (t : State) : (latchOperands s op t).din = t.din := rfl
@[simp] theorem latchOperands_dout (s : State) (op : Opcode) (t : State) : (latchOperands s op t).dout = t.dout := rfl
@[simp] theorem latchOperands_done (s : State) (op : Opcode) (t : State) : (latchOperands s op t).done = false := rfl
@[simp] theorem latchOperands_rkValid (s : State) (op : Opcode) (t : State) : (latchOperands s op t).rkValid = t.rkValid := rfl
@[simp] theorem latchOperands_errCmd (s : State) (op : Opcode) (t : State) : (latchOperands s op t).errCmd = t.errCmd := rfl
@[simp] theorem latchOperands_errBusy (s : State) (op : Opcode) (t : State) : (latchOperands s op t).errBusy = t.errBusy := rfl
@[simp] theorem latchOperands_irqEn (s : State) (op : Opcode) (t : State) : (latchOperands s op t).irqEn = t.irqEn := rfl
@[simp] theorem latchOperands_rkSel (s : State) (op : Opcode) (t : State) : (latchOperands s op t).rkSel = t.rkSel := rfl
@[simp] theorem latchOperands_rk (s : State) (op : Opcode) (t : State) : (latchOperands s op t).rk = t.rk := rfl
@[simp] theorem latchOperands_phase (s : State) (op : Opcode) (t : State) : (latchOperands s op t).phase = t.phase := rfl
@[simp] theorem latchOperands_cnt (s : State) (op : Opcode) (t : State) : (latchOperands s op t).cnt = t.cnt := rfl
@[simp] theorem latchOperands_opL (s : State) (op : Opcode) (t : State) : (latchOperands s op t).opL = op := rfl
@[simp] theorem latchOperands_c (s : State) (op : Opcode) (t : State) : (latchOperands s op t).c = t.c := rfl
@[simp] theorem latchOperands_d (s : State) (op : Opcode) (t : State) : (latchOperands s op t).d = t.d := rfl
@[simp] theorem latchOperands_l (s : State) (op : Opcode) (t : State) : (latchOperands s op t).l = hi32 (ip (chainInput op s.din s.iv)) := rfl
@[simp] theorem latchOperands_r (s : State) (op : Opcode) (t : State) : (latchOperands s op t).r = lo32 (ip (chainInput op s.din s.iv)) := rfl
@[simp] theorem latchOperands_chainL (s : State) (op : Opcode) (t : State) : (latchOperands s op t).chainL = s.iv := rfl
@[simp] theorem latchOperands_cinL (s : State) (op : Opcode) (t : State) : (latchOperands s op t).cinL = s.din := rfl
@[simp] theorem latchOperands_busRdata (s : State) (op : Opcode) (t : State) : (latchOperands s op t).busRdata = t.busRdata := rfl
@[simp] theorem latchOperands_inputs (s : State) (op : Opcode) (t : State) : (latchOperands s op t).inputs = t.inputs := rfl
@[simp] theorem latchOperands_freeCount (s : State) (op : Opcode) (t : State) : (latchOperands s op t).freeCount = t.freeCount := rfl

@[simp] theorem startDerivation_key (s : State) (t : State) : (startDerivation s t).key = t.key := rfl
@[simp] theorem startDerivation_iv (s : State) (t : State) : (startDerivation s t).iv = t.iv := rfl
@[simp] theorem startDerivation_din (s : State) (t : State) : (startDerivation s t).din = t.din := rfl
@[simp] theorem startDerivation_dout (s : State) (t : State) : (startDerivation s t).dout = t.dout := rfl
@[simp] theorem startDerivation_done (s : State) (t : State) : (startDerivation s t).done = t.done := rfl
@[simp] theorem startDerivation_rkValid (s : State) (t : State) : (startDerivation s t).rkValid = false := rfl
@[simp] theorem startDerivation_errCmd (s : State) (t : State) : (startDerivation s t).errCmd = t.errCmd := rfl
@[simp] theorem startDerivation_errBusy (s : State) (t : State) : (startDerivation s t).errBusy = t.errBusy := rfl
@[simp] theorem startDerivation_irqEn (s : State) (t : State) : (startDerivation s t).irqEn = t.irqEn := rfl
@[simp] theorem startDerivation_rkSel (s : State) (t : State) : (startDerivation s t).rkSel = t.rkSel := rfl
@[simp] theorem startDerivation_rk (s : State) (t : State) : (startDerivation s t).rk = t.rk := rfl
@[simp] theorem startDerivation_phase (s : State) (t : State) : (startDerivation s t).phase = .ks := rfl
@[simp] theorem startDerivation_cnt (s : State) (t : State) : (startDerivation s t).cnt = 1#5 := rfl
@[simp] theorem startDerivation_opL (s : State) (t : State) : (startDerivation s t).opL = t.opL := rfl
@[simp] theorem startDerivation_c (s : State) (t : State) : (startDerivation s t).c = (initialHalves s.key).1 := rfl
@[simp] theorem startDerivation_d (s : State) (t : State) : (startDerivation s t).d = (initialHalves s.key).2 := rfl
@[simp] theorem startDerivation_l (s : State) (t : State) : (startDerivation s t).l = t.l := rfl
@[simp] theorem startDerivation_r (s : State) (t : State) : (startDerivation s t).r = t.r := rfl
@[simp] theorem startDerivation_chainL (s : State) (t : State) : (startDerivation s t).chainL = t.chainL := rfl
@[simp] theorem startDerivation_cinL (s : State) (t : State) : (startDerivation s t).cinL = t.cinL := rfl
@[simp] theorem startDerivation_busRdata (s : State) (t : State) : (startDerivation s t).busRdata = t.busRdata := rfl
@[simp] theorem startDerivation_inputs (s : State) (t : State) : (startDerivation s t).inputs = t.inputs := rfl
@[simp] theorem startDerivation_freeCount (s : State) (t : State) : (startDerivation s t).freeCount = t.freeCount := rfl

@[simp] theorem startRounds_key (t : State) : (startRounds t).key = t.key := rfl
@[simp] theorem startRounds_iv (t : State) : (startRounds t).iv = t.iv := rfl
@[simp] theorem startRounds_din (t : State) : (startRounds t).din = t.din := rfl
@[simp] theorem startRounds_dout (t : State) : (startRounds t).dout = t.dout := rfl
@[simp] theorem startRounds_done (t : State) : (startRounds t).done = t.done := rfl
@[simp] theorem startRounds_rkValid (t : State) : (startRounds t).rkValid = t.rkValid := rfl
@[simp] theorem startRounds_errCmd (t : State) : (startRounds t).errCmd = t.errCmd := rfl
@[simp] theorem startRounds_errBusy (t : State) : (startRounds t).errBusy = t.errBusy := rfl
@[simp] theorem startRounds_irqEn (t : State) : (startRounds t).irqEn = t.irqEn := rfl
@[simp] theorem startRounds_rkSel (t : State) : (startRounds t).rkSel = t.rkSel := rfl
@[simp] theorem startRounds_rk (t : State) : (startRounds t).rk = t.rk := rfl
@[simp] theorem startRounds_phase (t : State) : (startRounds t).phase = .rnd := rfl
@[simp] theorem startRounds_cnt (t : State) : (startRounds t).cnt = 1#5 := rfl
@[simp] theorem startRounds_opL (t : State) : (startRounds t).opL = t.opL := rfl
@[simp] theorem startRounds_c (t : State) : (startRounds t).c = t.c := rfl
@[simp] theorem startRounds_d (t : State) : (startRounds t).d = t.d := rfl
@[simp] theorem startRounds_l (t : State) : (startRounds t).l = t.l := rfl
@[simp] theorem startRounds_r (t : State) : (startRounds t).r = t.r := rfl
@[simp] theorem startRounds_chainL (t : State) : (startRounds t).chainL = t.chainL := rfl
@[simp] theorem startRounds_cinL (t : State) : (startRounds t).cinL = t.cinL := rfl
@[simp] theorem startRounds_busRdata (t : State) : (startRounds t).busRdata = t.busRdata := rfl
@[simp] theorem startRounds_inputs (t : State) : (startRounds t).inputs = t.inputs := rfl
@[simp] theorem startRounds_freeCount (t : State) : (startRounds t).freeCount = t.freeCount := rfl

@[simp] theorem retire_key (t : State) : (retire t).key = t.key := rfl
@[simp] theorem retire_iv (t : State) : (retire t).iv = t.iv := rfl
@[simp] theorem retire_din (t : State) : (retire t).din = t.din := rfl
@[simp] theorem retire_dout (t : State) : (retire t).dout = t.dout := rfl
@[simp] theorem retire_done (t : State) : (retire t).done = t.done := rfl
@[simp] theorem retire_rkValid (t : State) : (retire t).rkValid = t.rkValid := rfl
@[simp] theorem retire_errCmd (t : State) : (retire t).errCmd = t.errCmd := rfl
@[simp] theorem retire_errBusy (t : State) : (retire t).errBusy = t.errBusy := rfl
@[simp] theorem retire_irqEn (t : State) : (retire t).irqEn = t.irqEn := rfl
@[simp] theorem retire_rkSel (t : State) : (retire t).rkSel = t.rkSel := rfl
@[simp] theorem retire_rk (t : State) : (retire t).rk = t.rk := rfl
@[simp] theorem retire_phase (t : State) : (retire t).phase = .idle := rfl
@[simp] theorem retire_cnt (t : State) : (retire t).cnt = 0#5 := rfl
@[simp] theorem retire_opL (t : State) : (retire t).opL = t.opL := rfl
@[simp] theorem retire_c (t : State) : (retire t).c = t.c := rfl
@[simp] theorem retire_d (t : State) : (retire t).d = t.d := rfl
@[simp] theorem retire_l (t : State) : (retire t).l = t.l := rfl
@[simp] theorem retire_r (t : State) : (retire t).r = t.r := rfl
@[simp] theorem retire_chainL (t : State) : (retire t).chainL = t.chainL := rfl
@[simp] theorem retire_cinL (t : State) : (retire t).cinL = t.cinL := rfl
@[simp] theorem retire_busRdata (t : State) : (retire t).busRdata = t.busRdata := rfl
@[simp] theorem retire_inputs (t : State) : (retire t).inputs = t.inputs := rfl
@[simp] theorem retire_freeCount (t : State) : (retire t).freeCount = t.freeCount := rfl

@[simp] theorem driveRdata_key (v : Block) (t : State) : (driveRdata v t).key = t.key := rfl
@[simp] theorem driveRdata_iv (v : Block) (t : State) : (driveRdata v t).iv = t.iv := rfl
@[simp] theorem driveRdata_din (v : Block) (t : State) : (driveRdata v t).din = t.din := rfl
@[simp] theorem driveRdata_dout (v : Block) (t : State) : (driveRdata v t).dout = t.dout := rfl
@[simp] theorem driveRdata_done (v : Block) (t : State) : (driveRdata v t).done = t.done := rfl
@[simp] theorem driveRdata_rkValid (v : Block) (t : State) : (driveRdata v t).rkValid = t.rkValid := rfl
@[simp] theorem driveRdata_errCmd (v : Block) (t : State) : (driveRdata v t).errCmd = t.errCmd := rfl
@[simp] theorem driveRdata_errBusy (v : Block) (t : State) : (driveRdata v t).errBusy = t.errBusy := rfl
@[simp] theorem driveRdata_irqEn (v : Block) (t : State) : (driveRdata v t).irqEn = t.irqEn := rfl
@[simp] theorem driveRdata_rkSel (v : Block) (t : State) : (driveRdata v t).rkSel = t.rkSel := rfl
@[simp] theorem driveRdata_rk (v : Block) (t : State) : (driveRdata v t).rk = t.rk := rfl
@[simp] theorem driveRdata_phase (v : Block) (t : State) : (driveRdata v t).phase = t.phase := rfl
@[simp] theorem driveRdata_cnt (v : Block) (t : State) : (driveRdata v t).cnt = t.cnt := rfl
@[simp] theorem driveRdata_opL (v : Block) (t : State) : (driveRdata v t).opL = t.opL := rfl
@[simp] theorem driveRdata_c (v : Block) (t : State) : (driveRdata v t).c = t.c := rfl
@[simp] theorem driveRdata_d (v : Block) (t : State) : (driveRdata v t).d = t.d := rfl
@[simp] theorem driveRdata_l (v : Block) (t : State) : (driveRdata v t).l = t.l := rfl
@[simp] theorem driveRdata_r (v : Block) (t : State) : (driveRdata v t).r = t.r := rfl
@[simp] theorem driveRdata_chainL (v : Block) (t : State) : (driveRdata v t).chainL = t.chainL := rfl
@[simp] theorem driveRdata_cinL (v : Block) (t : State) : (driveRdata v t).cinL = t.cinL := rfl
@[simp] theorem driveRdata_busRdata (v : Block) (t : State) : (driveRdata v t).busRdata = v := rfl
@[simp] theorem driveRdata_inputs (v : Block) (t : State) : (driveRdata v t).inputs = t.inputs := rfl
@[simp] theorem driveRdata_freeCount (v : Block) (t : State) : (driveRdata v t).freeCount = t.freeCount := rfl

@[simp] theorem takePort_key (t : State) : (takePort t).key = t.key := rfl
@[simp] theorem takePort_iv (t : State) : (takePort t).iv = t.iv := rfl
@[simp] theorem takePort_din (t : State) : (takePort t).din = t.din := rfl
@[simp] theorem takePort_dout (t : State) : (takePort t).dout = t.dout := rfl
@[simp] theorem takePort_done (t : State) : (takePort t).done = t.done := rfl
@[simp] theorem takePort_rkValid (t : State) : (takePort t).rkValid = t.rkValid := rfl
@[simp] theorem takePort_errCmd (t : State) : (takePort t).errCmd = t.errCmd := rfl
@[simp] theorem takePort_errBusy (t : State) : (takePort t).errBusy = t.errBusy := rfl
@[simp] theorem takePort_irqEn (t : State) : (takePort t).irqEn = t.irqEn := rfl
@[simp] theorem takePort_rkSel (t : State) : (takePort t).rkSel = t.rkSel := rfl
@[simp] theorem takePort_rk (t : State) : (takePort t).rk = t.rk := rfl
@[simp] theorem takePort_phase (t : State) : (takePort t).phase = t.phase := rfl
@[simp] theorem takePort_cnt (t : State) : (takePort t).cnt = t.cnt := rfl
@[simp] theorem takePort_opL (t : State) : (takePort t).opL = t.opL := rfl
@[simp] theorem takePort_c (t : State) : (takePort t).c = t.c := rfl
@[simp] theorem takePort_d (t : State) : (takePort t).d = t.d := rfl
@[simp] theorem takePort_l (t : State) : (takePort t).l = t.l := rfl
@[simp] theorem takePort_r (t : State) : (takePort t).r = t.r := rfl
@[simp] theorem takePort_chainL (t : State) : (takePort t).chainL = t.chainL := rfl
@[simp] theorem takePort_cinL (t : State) : (takePort t).cinL = t.cinL := rfl
@[simp] theorem takePort_busRdata (t : State) : (takePort t).busRdata = t.busRdata := rfl
@[simp] theorem takePort_inputs (t : State) : (takePort t).inputs = t.inputs.drop 1 := rfl
@[simp] theorem takePort_freeCount (t : State) : (takePort t).freeCount = t.freeCount := rfl

@[simp] theorem placePort_key (p : PortIn) (t : State) : (placePort p t).key = t.key := rfl
@[simp] theorem placePort_iv (p : PortIn) (t : State) : (placePort p t).iv = t.iv := rfl
@[simp] theorem placePort_din (p : PortIn) (t : State) : (placePort p t).din = t.din := rfl
@[simp] theorem placePort_dout (p : PortIn) (t : State) : (placePort p t).dout = t.dout := rfl
@[simp] theorem placePort_done (p : PortIn) (t : State) : (placePort p t).done = t.done := rfl
@[simp] theorem placePort_rkValid (p : PortIn) (t : State) : (placePort p t).rkValid = t.rkValid := rfl
@[simp] theorem placePort_errCmd (p : PortIn) (t : State) : (placePort p t).errCmd = t.errCmd := rfl
@[simp] theorem placePort_errBusy (p : PortIn) (t : State) : (placePort p t).errBusy = t.errBusy := rfl
@[simp] theorem placePort_irqEn (p : PortIn) (t : State) : (placePort p t).irqEn = t.irqEn := rfl
@[simp] theorem placePort_rkSel (p : PortIn) (t : State) : (placePort p t).rkSel = t.rkSel := rfl
@[simp] theorem placePort_rk (p : PortIn) (t : State) : (placePort p t).rk = t.rk := rfl
@[simp] theorem placePort_phase (p : PortIn) (t : State) : (placePort p t).phase = t.phase := rfl
@[simp] theorem placePort_cnt (p : PortIn) (t : State) : (placePort p t).cnt = t.cnt := rfl
@[simp] theorem placePort_opL (p : PortIn) (t : State) : (placePort p t).opL = t.opL := rfl
@[simp] theorem placePort_c (p : PortIn) (t : State) : (placePort p t).c = t.c := rfl
@[simp] theorem placePort_d (p : PortIn) (t : State) : (placePort p t).d = t.d := rfl
@[simp] theorem placePort_l (p : PortIn) (t : State) : (placePort p t).l = t.l := rfl
@[simp] theorem placePort_r (p : PortIn) (t : State) : (placePort p t).r = t.r := rfl
@[simp] theorem placePort_chainL (p : PortIn) (t : State) : (placePort p t).chainL = t.chainL := rfl
@[simp] theorem placePort_cinL (p : PortIn) (t : State) : (placePort p t).cinL = t.cinL := rfl
@[simp] theorem placePort_busRdata (p : PortIn) (t : State) : (placePort p t).busRdata = t.busRdata := rfl
@[simp] theorem placePort_inputs (p : PortIn) (t : State) : (placePort p t).inputs = p :: t.inputs.drop 1 := rfl
@[simp] theorem placePort_freeCount (p : PortIn) (t : State) : (placePort p t).freeCount = t.freeCount := rfl

@[simp] theorem deliver_key (s : State) (y : Block) (t : State) : (deliver s y t).key = t.key := by
  unfold deliver; split <;> rfl
@[simp] theorem deliver_iv (s : State) (y : Block) (t : State) : (deliver s y t).iv = if isBlockOp s.opL then chainNext s.opL (chainOutput s.opL y s.chainL) s.cinL t.iv else t.iv := by
  unfold deliver; split <;> rfl
@[simp] theorem deliver_din (s : State) (y : Block) (t : State) : (deliver s y t).din = t.din := by
  unfold deliver; split <;> rfl
@[simp] theorem deliver_dout (s : State) (y : Block) (t : State) : (deliver s y t).dout = if isBlockOp s.opL then chainOutput s.opL y s.chainL else t.dout := by
  unfold deliver; split <;> rfl
@[simp] theorem deliver_done (s : State) (y : Block) (t : State) : (deliver s y t).done = t.done := by
  unfold deliver; split <;> rfl
@[simp] theorem deliver_rkValid (s : State) (y : Block) (t : State) : (deliver s y t).rkValid = t.rkValid := by
  unfold deliver; split <;> rfl
@[simp] theorem deliver_errCmd (s : State) (y : Block) (t : State) : (deliver s y t).errCmd = t.errCmd := by
  unfold deliver; split <;> rfl
@[simp] theorem deliver_errBusy (s : State) (y : Block) (t : State) : (deliver s y t).errBusy = t.errBusy := by
  unfold deliver; split <;> rfl
@[simp] theorem deliver_irqEn (s : State) (y : Block) (t : State) : (deliver s y t).irqEn = t.irqEn := by
  unfold deliver; split <;> rfl
@[simp] theorem deliver_rkSel (s : State) (y : Block) (t : State) : (deliver s y t).rkSel = t.rkSel := by
  unfold deliver; split <;> rfl
@[simp] theorem deliver_rk (s : State) (y : Block) (t : State) : (deliver s y t).rk = t.rk := by
  unfold deliver; split <;> rfl
@[simp] theorem deliver_phase (s : State) (y : Block) (t : State) : (deliver s y t).phase = t.phase := by
  unfold deliver; split <;> rfl
@[simp] theorem deliver_cnt (s : State) (y : Block) (t : State) : (deliver s y t).cnt = t.cnt := by
  unfold deliver; split <;> rfl
@[simp] theorem deliver_opL (s : State) (y : Block) (t : State) : (deliver s y t).opL = t.opL := by
  unfold deliver; split <;> rfl
@[simp] theorem deliver_c (s : State) (y : Block) (t : State) : (deliver s y t).c = t.c := by
  unfold deliver; split <;> rfl
@[simp] theorem deliver_d (s : State) (y : Block) (t : State) : (deliver s y t).d = t.d := by
  unfold deliver; split <;> rfl
@[simp] theorem deliver_l (s : State) (y : Block) (t : State) : (deliver s y t).l = t.l := by
  unfold deliver; split <;> rfl
@[simp] theorem deliver_r (s : State) (y : Block) (t : State) : (deliver s y t).r = t.r := by
  unfold deliver; split <;> rfl
@[simp] theorem deliver_chainL (s : State) (y : Block) (t : State) : (deliver s y t).chainL = t.chainL := by
  unfold deliver; split <;> rfl
@[simp] theorem deliver_cinL (s : State) (y : Block) (t : State) : (deliver s y t).cinL = t.cinL := by
  unfold deliver; split <;> rfl
@[simp] theorem deliver_busRdata (s : State) (y : Block) (t : State) : (deliver s y t).busRdata = t.busRdata := by
  unfold deliver; split <;> rfl
@[simp] theorem deliver_inputs (s : State) (y : Block) (t : State) : (deliver s y t).inputs = t.inputs := by
  unfold deliver; split <;> rfl
@[simp] theorem deliver_freeCount (s : State) (y : Block) (t : State) : (deliver s y t).freeCount = t.freeCount := by
  unfold deliver; split <;> rfl

/-! BUSY is the phase, so only the updates that write the phase change it. -/

theorem busy_eq_of_phase_eq {s t : State} (h : s.phase = t.phase) : s.busy = t.busy := by simp [State.busy, h]

@[simp] theorem setDone_busy (t : State) : (setDone t).busy = t.busy := rfl
@[simp] theorem raiseErrCmd_busy (t : State) : (raiseErrCmd t).busy = t.busy := rfl
@[simp] theorem raiseErrBusy_busy (t : State) : (raiseErrBusy t).busy = t.busy := rfl
@[simp] theorem clearStatus_busy (v : Block) (t : State) : (clearStatus v t).busy = t.busy := rfl
@[simp] theorem loadKey_busy (v : Block) (t : State) : (loadKey v t).busy = t.busy := rfl
@[simp] theorem loadIv_busy (v : Block) (t : State) : (loadIv v t).busy = t.busy := rfl
@[simp] theorem loadDin_busy (v : Block) (t : State) : (loadDin v t).busy = t.busy := rfl
@[simp] theorem loadCtrl_busy (v : Block) (t : State) : (loadCtrl v t).busy = t.busy := rfl
@[simp] theorem latchOperands_busy (s : State) (op : Opcode) (t : State) : (latchOperands s op t).busy = t.busy := rfl
@[simp] theorem startDerivation_busy (s : State) (t : State) : (startDerivation s t).busy = true := rfl
@[simp] theorem startRounds_busy (t : State) : (startRounds t).busy = true := rfl
@[simp] theorem retire_busy (t : State) : (retire t).busy = false := rfl
@[simp] theorem driveRdata_busy (v : Block) (t : State) : (driveRdata v t).busy = t.busy := rfl
@[simp] theorem takePort_busy (t : State) : (takePort t).busy = t.busy := rfl
@[simp] theorem placePort_busy (p : PortIn) (t : State) : (placePort p t).busy = t.busy := rfl
@[simp] theorem deliver_busy (s : State) (y : Block) (t : State) : (deliver s y t).busy = t.busy :=
  busy_eq_of_phase_eq (deliver_phase s y t)

theorem busy_eq_false_iff {s : State} : s.busy = false ↔ s.phase = .idle := by
  unfold State.busy; cases s.phase <;> decide

theorem busy_eq_true_iff {s : State} : s.busy = true ↔ s.phase = .ks ∨ s.phase = .rnd := by
  unfold State.busy; cases s.phase <;> decide

end Sys2Proof.Machine
end

