-- ==== Sys2Proof/Laws/Ops.lean ====
section
/-! SUPPORT. What each shared operation of an edge can do, said once: the engine's part by phase, the whole edge, the register writes, and exec and step in one form for all instructions. -/

namespace Sys2Proof.Machine

/-! The engine's part of an edge (spec/44_commands.md R212). -/

theorem engineEdge_idle {s : State} (h : s.phase = .idle) : engineEdge s = (s, false) := by simp [engineEdge, h]
theorem engineEdge_ks {s : State} (h : s.phase = .ks) : engineEdge s = ksEdge s := by simp [engineEdge, h]
theorem engineEdge_rnd {s : State} (h : s.phase = .rnd) : engineEdge s = rndEdge s := by simp [engineEdge, h]

/-- A key-schedule edge before the sixteenth (spec/41_key_schedule.md R147). -/
theorem ksEdge_early {s : State} (h : s.cnt ≠ 16#5) :
    ksEdge s =
      ({ s with
         c := (rotateHalves s.cnt.toNat (s.c, s.d)).1
         d := (rotateHalves s.cnt.toNat (s.c, s.d)).2
         rk := rkWrite s.rk s.cnt.toNat (subkeyOf (rotateHalves s.cnt.toNat (s.c, s.d)))
         cnt := s.cnt + 1#5 }, false) := by
  simp [ksEdge, h]

/-- The sixteenth key-schedule edge of a command that goes on to its rounds. -/
theorem ksEdge_toRounds {s : State} (h : s.cnt = 16#5) (hop : s.opL ≠ opKeysched) :
    ksEdge s =
      ({ s with
         c := (rotateHalves 16 (s.c, s.d)).1
         d := (rotateHalves 16 (s.c, s.d)).2
         rk := rkWrite s.rk 16 (subkeyOf (rotateHalves 16 (s.c, s.d)))
         rkValid := true
         phase := .rnd
         cnt := 1#5 }, false) := by
  simp [ksEdge, h, hop, startRounds]

/-- The sixteenth key-schedule edge of KEYSCHED, which completes it. -/
theorem ksEdge_completes {s : State} (h : s.cnt = 16#5) (hop : s.opL = opKeysched) :
    ksEdge s =
      ({ s with
         c := (rotateHalves 16 (s.c, s.d)).1
         d := (rotateHalves 16 (s.c, s.d)).2
         rk := rkWrite s.rk 16 (subkeyOf (rotateHalves 16 (s.c, s.d)))
         rkValid := true
         phase := .idle
         cnt := 0#5 }, true) := by
  simp [ksEdge, h, hop, retire]

/-- The halves a round edge computes (spec/42_feistel.md R170). -/
def nextRoundHalves (s : State) : Half × Half :=
  feistelRound (s.l, s.r) (subkeyInOrder s.rk (takesReverse s.opL) s.cnt.toNat)

/-- A round edge before the sixteenth. -/
theorem rndEdge_early {s : State} (h : s.cnt ≠ 16#5) :
    rndEdge s =
      ({ s with l := (nextRoundHalves s).1, r := (nextRoundHalves s).2, cnt := s.cnt + 1#5 }, false) := by
  simp [rndEdge, h, nextRoundHalves]

/-- The sixteenth round edge, which completes the command. -/
theorem rndEdge_completes {s : State} (h : s.cnt = 16#5) :
    rndEdge s =
      (retire (deliver s (preOutput (nextRoundHalves s))
        { s with l := (nextRoundHalves s).1, r := (nextRoundHalves s).2 }), true) := by
  simp [rndEdge, h, nextRoundHalves]

/-- The engine's part of an edge never writes the host's operands, its flags but RK_VALID, CTRL, the latched operands or
the model's own fields. -/
theorem engineEdge_frame (s : State) :
    (engineEdge s).1.key = s.key ∧ (engineEdge s).1.din = s.din ∧ (engineEdge s).1.done = s.done ∧
    (engineEdge s).1.errCmd = s.errCmd ∧ (engineEdge s).1.errBusy = s.errBusy ∧
    (engineEdge s).1.irqEn = s.irqEn ∧ (engineEdge s).1.rkSel = s.rkSel ∧ (engineEdge s).1.opL = s.opL ∧
    (engineEdge s).1.chainL = s.chainL ∧ (engineEdge s).1.cinL = s.cinL ∧
    (engineEdge s).1.busRdata = s.busRdata ∧ (engineEdge s).1.inputs = s.inputs ∧
    (engineEdge s).1.freeCount = s.freeCount := by
  unfold engineEdge
  cases s.phase with
  | idle => simp
  | ks =>
    unfold ksEdge
    by_cases h : s.cnt = 16#5 <;> by_cases hop : s.opL = opKeysched <;> simp [h, hop]
  | rnd =>
    unfold rndEdge
    by_cases h : s.cnt = 16#5 <;> simp [h]

/-- An edge completes a command exactly when it leaves a busy phase. -/
theorem engineEdge_completes_iff (s : State) :
    (engineEdge s).2 = true ↔ s.busy = true ∧ (engineEdge s).1.busy = false := by
  cases hp : s.phase with
  | idle => simp [engineEdge_idle hp, busy_eq_false_iff.mpr hp]
  | ks =>
    rw [engineEdge_ks hp]
    unfold ksEdge
    by_cases h : s.cnt = 16#5 <;> by_cases hop : s.opL = opKeysched <;> simp [h, hop, State.busy, hp]
  | rnd =>
    rw [engineEdge_rnd hp]
    unfold rndEdge
    by_cases h : s.cnt = 16#5 <;> simp [h, State.busy, hp]

/-! The whole edge (R212). -/

/-- With BUSY = 0 an edge is the host's write alone. -/
theorem edge_idle {s : State} (h : s.busy = false) (write : State → State) : edge s write = write s := by
  simp [edge, engineEdge_idle (busy_eq_false_iff.mp h)]

/-- With BUSY = 0 and no access an edge changes nothing (spec/60_exceptions.md R265). -/
theorem idleCycle_idle {s : State} (h : s.busy = false) : idleCycle s = driveRdata 0#64 s := by
  simp [idleCycle, quietCycle, edge_idle h]

theorem quietCycle_eq_idleCycle (s : State) (v : Block) : quietCycle s v = driveRdata v (idleCycle s) := rfl

/-- A write dropped while BUSY = 1 leaves the edge as it is without the write, plus ERR_BUSY (spec/60_exceptions.md R251, R254). -/
theorem writeCycle_dropped {s : State} (h : s.busy = true) (write : State → State) :
    writeCycle s (unlessBusy s write) = raiseErrBusy (idleCycle s) := by
  simp only [writeCycle, idleCycle, quietCycle, edge, unlessBusy, h, if_true, id]
  split <;> rfl

/-- A write accepted with BUSY = 0 is the whole edge. -/
theorem writeCycle_idle {s : State} (h : s.busy = false) (write : State → State) :
    writeCycle s (unlessBusy s write) = driveRdata 0#64 (write s) := by
  simp [writeCycle, edge_idle h, unlessBusy, h]

/-- The writes a host access can make, judged against `s`: what an edge of rst = 0 applies between the engine's part and
DONE's set. -/
inductive HostWrite (s : State) : (State → State) → Prop
  | none : HostWrite s id
  | status (v : Block) : HostWrite s (clearStatus v)
  | ctrl (v : Block) : HostWrite s (loadCtrl v)
  | dropped : s.busy = true → HostWrite s raiseErrBusy
  | key (v : Block) : s.busy = false → HostWrite s (loadKey v)
  | iv (v : Block) : s.busy = false → HostWrite s (loadIv v)
  | din (v : Block) : s.busy = false → HostWrite s (loadDin v)
  | reserved : s.busy = false → HostWrite s raiseErrCmd
  | command (op : Opcode) : s.busy = false → op ≠ opNop → op.toNat ≤ 5 → HostWrite s (accept s op)

theorem hostWrite_unlessBusy {s : State} {w : State → State} (h : s.busy = false → HostWrite s w) :
    HostWrite s (unlessBusy s w) := by
  cases hb : s.busy with
  | true =>
    have e : unlessBusy s w = raiseErrBusy := by funext t; simp [unlessBusy, hb]
    rw [e]; exact .dropped hb
  | false =>
    have e : unlessBusy s w = w := by funext t; simp [unlessBusy, hb]
    rw [e]; exact h hb

theorem hostWrite_cmdWrite (s : State) (op : Opcode) (hb : s.busy = false) : HostWrite s (cmdWrite s op) := by
  by_cases h0 : op = opNop
  · have e : cmdWrite s op = id := by funext t; simp [cmdWrite, h0]
    rw [e]; exact .none
  · by_cases h5 : op.toNat ≤ 5
    · have e : cmdWrite s op = accept s op := by funext t; simp [cmdWrite, h0, h5]
      rw [e]; exact .command op hb h0 h5
    · have e : cmdWrite s op = raiseErrCmd := by funext t; simp [cmdWrite, h0, h5]
      rw [e]; exact .reserved hb

theorem hostWrite_writeReg (s : State) (reg : Reg) (v : Block) : HostWrite s (writeReg s reg v) := by
  cases reg with
  | key => exact hostWrite_unlessBusy (.key v)
  | iv => exact hostWrite_unlessBusy (.iv v)
  | din => exact hostWrite_unlessBusy (.din v)
  | dout => exact .none
  | cmd => exact hostWrite_unlessBusy (hostWrite_cmdWrite s _)
  | status => exact .status v
  | ctrl => exact .ctrl v
  | rkdata => exact .none

/-- exec in one form for every instruction: a value on bus_rdata and an edge with one host write. -/
theorem exec_cases (i : Instr) (s : State) :
    ∃ rdata write, HostWrite s write ∧ exec i s = .next (driveRdata rdata (edge s write)) := by
  cases i with
  | rd reg => exact ⟨readReg s reg, id, .none, rfl⟩
  | wr reg v => exact ⟨0#64, _, hostWrite_writeReg s reg v, rfl⟩
  | nop _ => exact ⟨0#64, _, hostWrite_unlessBusy fun _ => .none, rfl⟩
  | ecbEnc _ => exact ⟨0#64, _, hostWrite_unlessBusy fun h => .command _ h (by decide) (by decide), rfl⟩
  | ecbDec _ => exact ⟨0#64, _, hostWrite_unlessBusy fun h => .command _ h (by decide) (by decide), rfl⟩
  | cbcEnc _ => exact ⟨0#64, _, hostWrite_unlessBusy fun h => .command _ h (by decide) (by decide), rfl⟩
  | cbcDec _ => exact ⟨0#64, _, hostWrite_unlessBusy fun h => .command _ h (by decide) (by decide), rfl⟩
  | keysched _ => exact ⟨0#64, _, hostWrite_unlessBusy fun h => .command _ h (by decide) (by decide), rfl⟩
  | reservedLow _ _ => exact ⟨0#64, _, hostWrite_unlessBusy .reserved, rfl⟩
  | reservedHigh _ _ => exact ⟨0#64, _, hostWrite_unlessBusy .reserved, rfl⟩

/-- Every edge with rst = 0 in the form of `exec_cases`, the edge without an access among them. -/
theorem edgeWith_cases (access : Option Instr) (s : State) :
    ∃ rdata write, HostWrite s write ∧ edgeWith access s = .next (driveRdata rdata (edge s write)) :=
  match access with
  | some i => exec_cases i s
  | none => ⟨0#64, id, .none, rfl⟩

/-- N is at most 32 (spec/70_reset_and_hazards.md R291). -/
theorem latency_le (op : Opcode) (rkValid : Bool) : latency op rkValid ≤ 32 := by
  revert op rkValid
  decide

/-! The port. -/

/-- The word of the port lines always decodes (log 10): its DATA is 0 in a read. -/
theorem decode_portWord (p : PortIn) :
    decode p.txWord =
      if p.busWe then .ok (if Reg.ofIdx p.busIdx = .cmd then decodeCmd p.busWdata else .wr (Reg.ofIdx p.busIdx) p.busWdata)
      else .ok (.rd (Reg.ofIdx p.busIdx)) := by
  cases h : p.busWe with
  | true => simpa [PortIn.txWord, h] using decode_write p.busIdx p.busWdata
  | false => simpa [PortIn.txWord, h] using decode_read p.busIdx

/-- The lines of a valid word spell that word. -/
theorem portWord_ofTxWord {w : TxWord} {i : Instr} (h : decode w = .ok i) : (PortIn.ofTxWord w).txWord = w := by
  cases hw : txWe w with
  | true =>
    have := txWord_fields w
    simpa [PortIn.ofTxWord, PortIn.txWord, hw] using this
  | false =>
    have hd : txData w = 0#64 := by
      by_contra hd
      simp [decode, hw, hd] at h
    have := txWord_fields w
    simpa [PortIn.ofTxWord, PortIn.txWord, hw, hd] using this

/-- A cycle in one form: a reset edge, or a value on bus_rdata and an edge with one host write. -/
theorem cycle_cases (p : PortIn) (s : State) :
    (p.rst = true ∧ cycle p s = .next (resetCycle p s)) ∨
    (p.rst = false ∧ ∃ rdata write, HostWrite s write ∧ cycle p s = .next (driveRdata rdata (edge s write))) := by
  cases hr : p.rst with
  | true => left; simp [cycle, hr]
  | false =>
    right
    refine ⟨rfl, ?_⟩
    cases he : p.busEn with
    | false => exact ⟨0#64, id, .none, by simp [cycle, hr, he, idleCycle, quietCycle]⟩
    | true =>
      have hd := decode_portWord p
      cases hw : p.busWe with
      | true =>
        rw [hw, if_pos rfl] at hd
        obtain ⟨rd, w, hW, hx⟩ := exec_cases
          (if Reg.ofIdx p.busIdx = .cmd then decodeCmd p.busWdata else .wr (Reg.ofIdx p.busIdx) p.busWdata) s
        exact ⟨rd, w, hW, by simp only [cycle, hr, he, hd, hx]; rfl⟩
      | false =>
        rw [hw, if_neg (by decide)] at hd
        obtain ⟨rd, w, hW, hx⟩ := exec_cases (.rd (Reg.ofIdx p.busIdx)) s
        exact ⟨rd, w, hW, by simp only [cycle, hr, he, hd, hx]; rfl⟩

end Sys2Proof.Machine
end

