-- ==== Sys2Proof/Laws/PerInstr.lean ====
section
/-! SUPPORT. One statement about every instruction as syntax: its encoding carries the fixed bits of its row of spec/opcode_table.json. -/

namespace Sys2Proof.Laws.EncodesRow

/-- The mnemonic of an instruction's row. -/
def mnemonic : Instr → String
  | .rd _ => "RD"
  | .wr _ _ => "WR"
  | .nop _ => "NOP"
  | .ecbEnc _ => "ECB_ENC"
  | .ecbDec _ => "ECB_DEC"
  | .cbcEnc _ => "CBC_ENC"
  | .cbcDec _ => "CBC_DEC"
  | .keysched _ => "KEYSCHED"
  | .reservedLow _ _ => "RESERVED"
  | .reservedHigh _ _ => "RESERVED"

/-- A BUS instruction's word belongs to its own BUS row; a command's word belongs to WR, and its data to its own CMD row. -/
def Statement (i : Instr) : Prop :=
  match i with
  | .rd _ => ∃ row ∈ busRows, row.mnemonic = mnemonic i ∧ row.holds (encode i).toNat = true
  | .wr _ _ => ∃ row ∈ busRows, row.mnemonic = mnemonic i ∧ row.holds (encode i).toNat = true
  | _ => (∃ row ∈ cmdRows, row.mnemonic = mnemonic i ∧ row.holds i.data.toNat = true) ∧
      ∃ row ∈ busRows, row.mnemonic = "WR" ∧ row.holds (encode i).toNat = true

/-- A mask within OP sees only OP of a command word (R95). -/
theorem cmdWord_and (op : Opcode) (ign : Ignored) {m : Nat} (hm : m < 16) :
    (cmdWord op ign).toNat &&& m = op.toNat &&& m := by
  have low : op.toNat = (cmdWord op ign).toNat % 2 ^ 4 := by
    have h : (cmdOp (cmdWord op ign)).toNat = op.toNat := by rw [cmdOp_cmdWord]
    simpa [cmdOp, BitVec.extractLsb'_toNat] using h.symm
  rw [low]
  apply Nat.eq_of_testBit_eq
  intro i
  rw [Nat.testBit_and, Nat.testBit_and, Nat.testBit_mod_two_pow]
  by_cases hi : i < 4
  · simp [hi]
  · have hz : m.testBit i = false := Nat.testBit_lt_two_pow
      (lt_of_lt_of_le hm (Nat.pow_le_pow_right (by decide : 2 > 0) (by omega : 4 ≤ i)))
    simp [hz]

/-- Bit 67 of a transaction word is WE (R91). -/
theorem txWord_and (we : BitVec 1) (idx : BitVec 3) (data : Block) :
    (txWord we idx data).toNat &&& 0x80000000000000000 = if we.getLsbD 0 then 0x80000000000000000 else 0 := by
  have h : (txWord we idx data).toNat.testBit 67 = we.getLsbD 0 := txWe_txWord we idx data
  rw [show (0x80000000000000000 : Nat) = 2 ^ 67 from rfl, Nat.and_two_pow, h]
  cases we.getLsbD 0 <;> simp

/-- The CMD rows match on OP alone. -/
theorem cmdRow_holds {row : TableRow} {op : Opcode} (ign : Ignored) (hm : row.mask < 16)
    (h : row.holds op.toNat = true) : row.holds (cmdWord op ign).toNat = true := by
  simpa only [TableRow.holds, cmdWord_and op ign hm] using h

/-- A write word belongs to the row WR. -/
theorem wrRow_holds (idx : BitVec 3) (data : Block) :
    ∃ row ∈ busRows, row.mnemonic = "WR" ∧ row.holds (txWord 1#1 idx data).toNat = true :=
  ⟨_, .tail _ (.head _), rfl, by simp [TableRow.holds, txWord_and]⟩

theorem rd (r : Reg) : Statement (.rd r) :=
  ⟨_, .head _, rfl, by simp [TableRow.holds, encode, txWord_and]⟩

theorem wr (r : Reg) (v : Block) : Statement (.wr r v) := wrRow_holds _ _

theorem nop (ign : Ignored) : Statement (.nop ign) :=
  ⟨⟨⟨"NOP", 0xF, 0x0⟩, by decide, rfl, cmdRow_holds ign (by decide) rfl⟩, wrRow_holds _ _⟩

theorem ecbEnc (ign : Ignored) : Statement (.ecbEnc ign) :=
  ⟨⟨⟨"ECB_ENC", 0xF, 0x1⟩, by decide, rfl, cmdRow_holds ign (by decide) rfl⟩, wrRow_holds _ _⟩

theorem ecbDec (ign : Ignored) : Statement (.ecbDec ign) :=
  ⟨⟨⟨"ECB_DEC", 0xF, 0x2⟩, by decide, rfl, cmdRow_holds ign (by decide) rfl⟩, wrRow_holds _ _⟩

theorem cbcEnc (ign : Ignored) : Statement (.cbcEnc ign) :=
  ⟨⟨⟨"CBC_ENC", 0xF, 0x3⟩, by decide, rfl, cmdRow_holds ign (by decide) rfl⟩, wrRow_holds _ _⟩

theorem cbcDec (ign : Ignored) : Statement (.cbcDec ign) :=
  ⟨⟨⟨"CBC_DEC", 0xF, 0x4⟩, by decide, rfl, cmdRow_holds ign (by decide) rfl⟩, wrRow_holds _ _⟩

theorem keysched (ign : Ignored) : Statement (.keysched ign) :=
  ⟨⟨⟨"KEYSCHED", 0xF, 0x5⟩, by decide, rfl, cmdRow_holds ign (by decide) rfl⟩, wrRow_holds _ _⟩

theorem reservedLow (op0 : BitVec 1) (ign : Ignored) : Statement (.reservedLow op0 ign) :=
  ⟨⟨⟨"RESERVED", 0xE, 0x6⟩, by decide, rfl, cmdRow_holds ign (by decide) (by revert op0; decide)⟩, wrRow_holds _ _⟩

theorem reservedHigh (op20 : BitVec 3) (ign : Ignored) : Statement (.reservedHigh op20 ign) :=
  ⟨⟨⟨"RESERVED", 0x8, 0x8⟩, by decide, rfl, cmdRow_holds ign (by decide) (by revert op20; decide)⟩, wrRow_holds _ _⟩

end Sys2Proof.Laws.EncodesRow
end

