-- ==== Sys2Proof/Laws/Permute.lean ====
section
/-! SUPPORT. Permute bit by bit (spec/00_scope.md R10): bit i of the result is one bit of the input, named by the table. -/

namespace Sys2Proof.Machine

/-- The fold of `permute`, read bit by bit. -/
theorem permute_fold_testBit {n : Nat} (v : BitVec n) (table : List Nat) (acc i : Nat) :
    (table.foldl (fun acc t => 2 * acc + (desBit v t).toNat) acc).testBit i =
      if h : i < table.length then desBit v (table[table.length - 1 - i]) else acc.testBit (i - table.length) := by
  induction table generalizing acc i with
  | nil => simp
  | cons t ts ih =>
    rw [List.foldl_cons, ih]
    by_cases h : i < ts.length
    · have h' : i < (t :: ts).length := by simp; omega
      have e : (t :: ts).length - 1 - i = (ts.length - 1 - i) + 1 := by simp; omega
      simp only [h, h', dif_pos, e, List.getElem_cons_succ]
    · simp only [h, dif_neg, not_false_iff]
      by_cases h2 : i = ts.length
      · subst h2
        have : (2 * acc + (desBit v t).toNat).testBit 0 = desBit v t := by
          cases desBit v t <;> simp [Nat.testBit_zero]
        simp [this]
      · have h' : ¬ i < (t :: ts).length := by simp; omega
        simp only [h', dif_neg, not_false_iff]
        have e : i - ts.length = (i - (t :: ts).length) + 1 := by simp; omega
        rw [e, Nat.testBit_add_one]
        congr 1
        cases desBit v t <;> (simp; try omega)

/-- Bit i of Permute(T, v, n) is DES bit T[m - i] of v (R10). -/
theorem permute_getLsbD {n m : Nat} (table : List Nat) (hm : table.length = m) (v : BitVec n) (i : Nat) :
    (permute m table v).getLsbD i = if h : i < m then desBit v (table[m - 1 - i]'(by omega)) else false := by
  subst hm
  rw [permute, BitVec.getLsbD_ofNat, permute_fold_testBit]
  by_cases h : i < table.length <;> simp [h]

/-- Permute commutes with exclusive-or (R10). -/
theorem permute_xor {n m : Nat} (table : List Nat) (hm : table.length = m) (v w : BitVec n) :
    permute m table (v ^^^ w) = permute m table v ^^^ permute m table w := by
  apply BitVec.eq_of_getLsbD_eq
  intro i hi
  rw [BitVec.getLsbD_xor, permute_getLsbD table hm, permute_getLsbD table hm, permute_getLsbD table hm]
  simp [hi, desBit]

/-- Permute commutes with complement (R10, spec/42_feistel.md R175). -/
theorem permute_not {n m : Nat} (table : List Nat) (hm : table.length = m) (hin : ∀ t ∈ table, 1 ≤ t ∧ t ≤ n)
    (v : BitVec n) : permute m table (~~~v) = ~~~(permute m table v) := by
  apply BitVec.eq_of_getLsbD_eq
  intro i hi
  have ht := hin _ (List.getElem_mem (by omega : m - 1 - i < table.length))
  have hlt : n - table[m - 1 - i] < n := by omega
  rw [BitVec.getLsbD_not, permute_getLsbD table hm, permute_getLsbD table hm, dif_pos hi, dif_pos hi, desBit, desBit,
    BitVec.getLsbD_not]
  simp [hlt, hi]

/-- Bit i of rotl_28(v, k) is bit (i - k) mod 28 of v (spec/00_scope.md R12). -/
theorem rotl28_getLsbD (v : KeyHalf) {k i : Nat} (hk : k < 28) (hi : i < 28) :
    (rotl28 v k).getLsbD i = v.getLsbD ((i + 28 - k) % 28) := by
  rw [rotl28, BitVec.getLsbD_rotateLeft, Nat.mod_eq_of_lt hk]
  by_cases h : i < k
  · simp [h]; congr 1; omega
  · simp [h, hi]; congr 1; omega

theorem ip_xor (x y : Block) : ip (x ^^^ y) = ip x ^^^ ip y := permute_xor ipTable rfl x y
theorem fp_xor (x y : Block) : fp (x ^^^ y) = fp x ^^^ fp y := permute_xor fpTable rfl x y
theorem expand_xor (x y : Half) : expand (x ^^^ y) = expand x ^^^ expand y := permute_xor expansionTable rfl x y
theorem pc1_xor (x y : Block) : pc1 (x ^^^ y) = pc1 x ^^^ pc1 y := permute_xor pc1Table rfl x y
theorem pc2_xor (x y : BitVec 56) : pc2 (x ^^^ y) = pc2 x ^^^ pc2 y := permute_xor pc2Table rfl x y

/-- The halves of a block put together again are the block (spec/00_scope.md R11). -/
theorem hi32_append_lo32 (v : Block) : hi32 v ++ lo32 v = v := by
  apply BitVec.eq_of_getLsbD_eq
  intro i hi
  simp only [hi32, lo32, BitVec.getLsbD_append, BitVec.getLsbD_extractLsb']
  by_cases h : i < 32
  · simp [h]
  · have e : 32 + (i - 32) = i := by omega
    simp [h, e]; omega

@[simp] theorem hi32_append (a b : Half) : hi32 (a ++ b) = a := by
  apply BitVec.eq_of_getLsbD_eq
  intro i hi
  rw [hi32, BitVec.getLsbD_extractLsb', BitVec.getLsbD_append]
  simp [hi]

@[simp] theorem lo32_append (a b : Half) : lo32 (a ++ b) = b := by
  apply BitVec.eq_of_getLsbD_eq
  intro i hi
  rw [lo32, BitVec.getLsbD_extractLsb', BitVec.getLsbD_append]
  simp [hi]

end Sys2Proof.Machine
end

