-- ==== Sys2Proof/Laws/Tables.lean ====
section
/-! SUPPORT. No lookup in any table goes out of range (spec/40_tables.md R138): neither the bit numbers of the permutation tables, nor the rows and columns of the S-boxes. -/

namespace Sys2Proof.Machine

theorem ipTable_in_range : ∀ t ∈ ipTable, 1 ≤ t ∧ t ≤ 64 := by decide
theorem fpTable_in_range : ∀ t ∈ fpTable, 1 ≤ t ∧ t ≤ 64 := by decide
theorem expansionTable_in_range : ∀ t ∈ expansionTable, 1 ≤ t ∧ t ≤ 32 := by decide
theorem roundPermTable_in_range : ∀ t ∈ roundPermTable, 1 ≤ t ∧ t ≤ 32 := by decide
theorem pc1Table_in_range : ∀ t ∈ pc1Table, 1 ≤ t ∧ t ≤ 64 := by decide
theorem pc2Table_in_range : ∀ t ∈ pc2Table, 1 ≤ t ∧ t ≤ 56 := by decide

/-- Every S-box table has four rows of sixteen columns, so `sbox` never takes its default. -/
theorem sboxTable_shape (k : Nat) : (sboxTable k).length = 4 ∧ ∀ row ∈ sboxTable k, row.length = 16 := by
  unfold sboxTable
  split <;> decide

theorem sboxRow_in_range (k : Nat) (g : BitVec 6) : (sboxRow g).toNat < (sboxTable k).length := by
  rw [(sboxTable_shape k).1]
  exact (sboxRow g).isLt

theorem sboxCol_in_range (k : Nat) (g : BitVec 6) {row : List Nat} (h : row ∈ sboxTable k) :
    (sboxCol g).toNat < row.length := by
  rw [(sboxTable_shape k).2 row h]
  exact (sboxCol g).isLt

end Sys2Proof.Machine
end

