-- ==== Sys2Proof/Tests/Slice0.lean ====
section
/-! SUPPORT. Small tests of the model, one edge each, and for each statement with hypotheses a witness that meets them. Expected values are the spec's own (spec/95_test_vectors.md V1 to V35 and the examples of the rules) or written out by hand from its encoding tables. -/

open Sys2Proof Sys2Proof.Machine

namespace Sys2Proof.Tests

set_option Elab.async false

/-- The next state of a result, if it is one. -/
def stateAfter (o : Result) : Option State :=
  match o with
  | .next t => some t
  | .fault _ => none
  | .refused _ => none

/-- What a register reads as in the next state. -/
def readAfter (o : Result) (r : Reg) : Option Block := (stateAfter o).map fun t => readReg t r

/-! WellFormed: the one check, on both of its sides. -/

/-- An ill-formed term: a write to CMD not spelled as its command (log 11). -/
theorem test_wellFormed_refuses_write_to_cmd : Instr.wellFormed (.wr .cmd 0x1#64) = false := rfl
theorem test_wellFormed_takes_write_to_iv : Instr.wellFormed (.wr .iv 0x1#64) = true := rfl

/-! Decoding, word by word: bit 67 is WE, bits 66:64 are IDX, bits 63:0 DATA (R91); bits 3:0 of a command word are OP (R95). -/

/-- `RD RKDATA`: WE 0, IDX 111, DATA 0. -/
theorem test_decode_rd : decode (0b0#1 ++ 0b111#3 ++ 0#64) = .ok (.rd .rkdata) := by decide +kernel
/-- `WR KEY, 0x133457799BBCDFF1` (R101): WE 1, IDX 000. -/
theorem test_decode_wr :
    decode (0b1#1 ++ 0b000#3 ++ 0x133457799BBCDFF1#64) = .ok (.wr .key 0x133457799BBCDFF1#64) := by decide +kernel
theorem test_decode_wr_ctrl : decode 0xE00000000000000F1#68 = .ok (.wr .ctrl 0xF1#64) := by decide +kernel
theorem test_decode_nop : decode (0b1#1 ++ 0b100#3 ++ 0#60 ++ 0b0000#4) = .ok (.nop 0#60) := by decide +kernel
theorem test_decode_ecbEnc : decode (0b1#1 ++ 0b100#3 ++ 0#60 ++ 0b0001#4) = .ok (.ecbEnc 0#60) := by decide +kernel
theorem test_decode_ecbDec : decode (0b1#1 ++ 0b100#3 ++ 0#60 ++ 0b0010#4) = .ok (.ecbDec 0#60) := by decide +kernel
theorem test_decode_cbcEnc : decode (0b1#1 ++ 0b100#3 ++ 0#60 ++ 0b0011#4) = .ok (.cbcEnc 0#60) := by decide +kernel
/-- Bits 63:4 are ignored (R95): the word keeps them, the command is the same. -/
theorem test_decode_cbcDec :
    decode (0b1#1 ++ 0b100#3 ++ 0xABC000000000001#60 ++ 0b0100#4) = .ok (.cbcDec 0xABC000000000001#60) := by
  decide +kernel
theorem test_decode_keysched : decode (0b1#1 ++ 0b100#3 ++ 0#60 ++ 0b0101#4) = .ok (.keysched 0#60) := by decide +kernel
theorem test_decode_reservedLow_6 :
    decode (0b1#1 ++ 0b100#3 ++ 0#60 ++ 0b0110#4) = .ok (.reservedLow 0#1 0#60) := by decide +kernel
theorem test_decode_reservedLow_7 :
    decode (0b1#1 ++ 0b100#3 ++ 0#60 ++ 0b0111#4) = .ok (.reservedLow 1#1 0#60) := by decide +kernel
theorem test_decode_reservedHigh_8 :
    decode (0b1#1 ++ 0b100#3 ++ 0#60 ++ 0b1000#4) = .ok (.reservedHigh 0#3 0#60) := by decide +kernel
theorem test_decode_reservedHigh_F :
    decode (0b1#1 ++ 0b100#3 ++ 0#60 ++ 0b1111#4) = .ok (.reservedHigh 7#3 0#60) := by decide +kernel
/-- A read word with DATA is no encoding (R91). -/
theorem test_decode_refuses_read_with_data : decode 0x50000000000000001#68 = .error .readWithData := by decide +kernel

/-! A row's word as opcode_table.json numbers it. -/

theorem test_table_word_cmd : decodeTableWord 64 0x4 = some (.cbcDec 0#60) := by decide +kernel
theorem test_table_word_rd : decodeTableWord 68 0x0 = some (.rd .key) := by decide +kernel
theorem test_table_word_wr : decodeTableWord 72 0x80000000000000000 = some (.wr .key 0#64) := by decide +kernel
/-- The presented word runs as the first access after reset: `WR CMD, 0xF` from reset (R225) sets ERR_CMD. -/
theorem test_fetch_word_runs :
    stateAfter (step (State.reset.withFetchWord 64 0xF)) = some { State.reset with errCmd := true } := by decide +kernel
theorem test_fetch_word_write :
    stateAfter (step (State.reset.withFetchWord 68 0x91234567890ABCDEF)) =
      some { State.reset with iv := 0x1234567890ABCDEF#64 } := by decide +kernel

/-! Tables and primitives: V5, V6, V7. -/

theorem test_ip_bits :
    ip 0x8000000000000000#64 = 0x0000000001000000#64 ∧ ip 0x0000000000000040#64 = 0x8000000000000000#64 := by decide +kernel
theorem test_fp_bits :
    fp 0x8000000000000000#64 = 0x0000000000000040#64 ∧ fp 0x0000000000000001#64 = 0x0200000000000000#64 := by decide +kernel
theorem test_expand_bits :
    expand 0x80000000#32 = 0x400000000001#48 ∧ expand 0x00000001#32 = 0x800000000002#48 := by decide +kernel
theorem test_round_perm_bits :
    roundPerm 0x80000000#32 = 0x00800000#32 ∧ roundPerm 0x00000001#32 = 0x00000800#32 := by decide +kernel
theorem test_pc1_bits :
    pc1 0x8000000000000000#64 = 0x01000000000000#56 ∧ pc1 0x0100000000000000#64 = 0#56 := by decide +kernel
theorem test_pc2_bit : pc2 0x80000000000000#56 = 0x080000000000#48 := by decide +kernel
/-- V6, one corner of each box that tells the rows apart. -/
theorem test_sbox_corners :
    sbox 1 33#6 = 15#4 ∧ sbox 2 1#6 = 3#4 ∧ sbox 3 32#6 = 13#4 ∧ sbox 4 62#6 = 4#4 ∧
    sbox 5 63#6 = 3#4 ∧ sbox 6 32#6 = 9#4 ∧ sbox 7 62#6 = 2#4 ∧ sbox 8 33#6 = 2#4 := by decide +kernel
/-- R129's example: g = 0b011000 is row 0, column 12. -/
theorem test_sbox_example : sbox 1 0b011000#6 = 5#4 := by decide +kernel
theorem test_rotl28 :
    rotl28 0x8000001#28 1 = 0x0000003#28 ∧ rotl28 0x8000001#28 2 = 0x0000006#28 := by decide +kernel

/-! Key schedule and round function: V4, V9, V8, V12. -/

theorem test_initial_halves : initialHalves 0x133457799BBCDFF1#64 = (0xF0CCAAF#28, 0x556678F#28) := by decide +kernel
theorem test_subkeys :
    subkey 0x133457799BBCDFF1#64 1 = 0x1B02EFFC7072#48 ∧ subkey 0x133457799BBCDFF1#64 9 = 0xE0DBEBEDE781#48 ∧
    subkey 0x133457799BBCDFF1#64 16 = 0xCB3D8B0E17F5#48 := by decide +kernel
theorem test_round_function :
    substitute 0x6117BA866527#48 = 0x5C82B597#32 ∧
    roundFunction 0xF0AAF0AA#32 0x1B02EFFC7072#48 = 0x234AA9BB#32 := by decide +kernel
theorem test_parity_key : encrypt 0x0123456789ABCDEF#64 0x123456789ABCDEF0#64 = 0x85E813540F0AB405#64 := by decide +kernel
theorem test_v19 : encrypt 0x138DDA71E3658966#64 0x0A3AEE4966660879#64 = 0x4297F1FA54DC69E6#64 := by decide +kernel
/-- V16, two blocks. -/
theorem test_cbc_encrypt :
    cbcEncrypt [0x4E6F772069732074#64, 0x68652074696D6520#64] 0x0123456789ABCDEF#64 0x1234567890ABCDEF#64 =
      [0xE5C7CDDE872BF27C#64, 0x43E934008C389C0F#64] := by decide +kernel
/-- V21. -/
theorem test_cbc_decrypt :
    cbcDecrypt [0x683788499A7C05F6#64] 0x0123456789ABCDEF#64 0x43E934008C389C0F#64 = [0x666F7220616C6C20#64] := by
  decide +kernel

/-! States for the tests and the witnesses. -/

/-- DONE and RK_VALID set: STATUS 0x6, with the derived keys of key 0 (V10). -/
def ready : State := { State.reset with rk := keySchedule 0#64, rkValid := true, done := true, dout := 0x1234#64 }

/-- In phase KS at edge `k` of a command `op`. -/
def inKs (op : Opcode) (k : BitVec 5) : State := { State.reset with phase := .ks, cnt := k, opL := op }

/-- In phase RND at round `k` of a command `op`, with the operands latched. -/
def inRnd (op : Opcode) (k : BitVec 5) : State :=
  { State.reset with phase := .rnd, cnt := k, opL := op, rkValid := true, chainL := 0x5#64, cinL := 0x9#64, dout := 0x77#64 }

/-! One access each. -/

/-- V28: a KEY write clears RK_VALID, STATUS 0x6 to 0x2. -/
theorem test_wr_key_clears_rkValid : readAfter (execWr .key 0#64 ready) .status = some 0x2#64 := by decide +kernel
/-- R26: only the written 1 bits clear. -/
theorem test_wr_status_clears_done_only :
    readAfter (execWr .status 0x2#64 { ready with errCmd := true }) .status = some 0xC#64 := by decide +kernel
/-- V33, R28: RKDATA is masked while RK_VALID = 0 and is K_1 of the key of ones while it is 1. -/
theorem test_rd_rkdata :
    readReg State.reset .rkdata = 0#64 ∧
    readReg { ready with rk := keySchedule 0xFFFFFFFFFFFFFFFF#64, rkSel := 7#4 } .rkdata = 0x0000FFFFFFFFFFFF#64 := by
  decide +kernel
/-- R27: RK_SEL is bits 7:4, IRQ_EN bit 0, of what CTRL reads. -/
theorem test_wr_ctrl_reads_back : readAfter (execWr .ctrl 0xFFFF#64 ready) .ctrl = some 0xF1#64 := by decide +kernel
/-- V25: NOP leaves STATUS 0x6. -/
theorem test_nop_keeps_status : readAfter (execNop 0#60 ready) .status = some 0x6#64 := by decide +kernel
/-- V29: acceptance clears DONE and sets BUSY; RK_VALID stays, so STATUS is 0x5. -/
theorem test_ecbEnc_accepts : readAfter (execEcbEnc 0#60 ready) .status = some 0x5#64 := by decide +kernel
/-- From reset the keys are derived first: STATUS 0x1 (P1). -/
theorem test_ecbDec_accepts_from_reset : readAfter (execEcbDec 0#60 State.reset) .status = some 0x1#64 := by decide +kernel
/-- V15: the input of CBC_ENC is DIN xor IV, through IP. -/
theorem test_cbcEnc_input_xor :
    (stateAfter (execCbcEnc 0#60 { ready with din := 0x4E6F772069732074#64, iv := 0x0123456789ABCDEF#64 })).map
        (fun t => (t.l, t.r)) = some (splitBlock (ip 0x4F4C3247E0D8ED9B#64)) := by decide +kernel
/-- R192, R193: CBC_DEC ends with the latched DIN in IV. -/
theorem test_cbcDec_completion : readAfter (execRd .iv (inRnd 4#4 16#5)) .iv = some 0x9#64 := by decide +kernel
/-- R224: KEYSCHED derives even with RK_VALID = 1, and RK_VALID reads 0 meanwhile. -/
theorem test_keysched_accepts : readAfter (execKeysched 0#60 ready) .status = some 0x1#64 := by decide +kernel
/-- V26: reserved from reset gives STATUS 0x8. -/
theorem test_reserved_from_reset : readAfter (execReservedLow 1#1 0#60 State.reset) .status = some 0x8#64 := by decide +kernel
/-- V27: reserved while BUSY = 1 sets ERR_BUSY only: STATUS 0x11. -/
theorem test_reserved_while_busy : readAfter (execReservedHigh 7#3 0#60 (inKs 1#4 3#5)) .status = some 0x11#64 := by
  decide +kernel
/-- V31: W1C of DONE in the cycle of the 16th KS edge: STATUS 0x1 before it and 0x6 after. -/
theorem test_done_set_wins :
    readReg (inKs 5#4 16#5) .status = 0x1#64 ∧
    readAfter (execWr .status 0x2#64 (inKs 5#4 16#5)) .status = some 0x6#64 := by decide +kernel
/-- V35: a read in the cycle of the completing edge returns the old DOUT on bus_rdata. -/
theorem test_read_in_completing_cycle : readReg (inRnd 1#4 16#5) .dout = 0x77#64 := rfl
/-- V9, row 1: the first KS edge for the key of the KAT writes K_1. -/
theorem test_ks_edge :
    rkRead (idleCycle { inKs 1#4 1#5 with c := 0xF0CCAAF#28, d := 0x556678F#28 }).rk 1 = 0x1B02EFFC7072#48 := by
  decide +kernel
/-- The last round of the KAT (V8's table, row 16): FP of R16 ‖ L16 is the ciphertext. -/
theorem test_pre_output : preOutput (0x43423234#32, 0x0A4CD995#32) = 0x85E813540F0AB405#64 := by decide +kernel
/-- V34: irq is 1 with IRQ_EN = 1 and DONE = 1, and 0 with IRQ_EN = 0. -/
theorem test_irq : ({ ready with irqEn := true } : State).irq = true ∧ ready.irq = false := by decide +kernel
/-- V32: a reset edge in flight leaves STATUS 0x0. -/
theorem test_reset_in_flight :
    readReg (resetCycle ⟨true, true, true, 4#3, 1#64⟩ (inKs 1#4 3#5)) .status = 0#64 := by rfl
/-- R100: `SELRK 16, 1` writes 0xF1. -/
theorem test_selrk_word : HostLine.expand (.selrk 15#4 true) = [.access (.wr .ctrl 0xF1#64)] := by decide +kernel
/-- R64: byte 0 is the most significant. -/
theorem test_pack : packBlock #v[0x4E#8, 0x6F#8, 0x77#8, 0x20#8, 0x69#8, 0x73#8, 0x20#8, 0x74#8] = 0x4E6F772069732074#64 := by
  decide +kernel
/-- R65: offset 56 is RKDATA; a half access is turned away. -/
theorem test_adapter : adapterReg 56 8 = some .rkdata ∧ adapterReg 4 8 = none ∧ adapterReg 8 4 = none := by decide +kernel

/-! Coherent states: at rest, in phase KS, in phase RND. -/

theorem coherent_of_rest {s : State} (hp : s.phase = .idle) (hc : s.cnt = 0#5)
    (hs : s.rkValid = true → s.rk = keySchedule s.key) : Coherent s where
  store := hs
  at_rest _ := hc
  deriving_keys h := by rw [hp] at h; cases h
  running_rounds h := by rw [hp] at h; cases h

theorem reset_coherent : Coherent State.reset := coherent_of_rest rfl rfl (by intro h; cases h)

theorem ready_coherent : Coherent ready := coherent_of_rest rfl rfl (fun _ => rfl)

/-- The state after `CMD ECB_ENC` from reset, in phase KS. -/
def accepted : State := accept State.reset opEcbEnc State.reset

theorem accepted_coherent : Coherent accepted where
  store h := by cases h
  at_rest h := by cases h
  deriving_keys _ :=
    { inFlight := ⟨by decide, by decide, rfl, rfl, rfl⟩
      op_legal := rfl
      rk_masked := rfl
      halves := by decide +kernel
      derived := by
        intro r h1 h2
        have e : accepted.cnt.toNat = 1 := rfl
        omega
      waiting := by decide +kernel }
  running_rounds h := by cases h

/-- The state after `CMD CBC_DEC` with valid round keys, in phase RND. -/
def acceptedRnd : State := accept ready opCbcDec ready

theorem acceptedRnd_coherent : Coherent acceptedRnd where
  store _ := rfl
  at_rest h := by cases h
  deriving_keys h := by cases h
  running_rounds _ :=
    { inFlight := ⟨by decide, by decide, rfl, rfl, rfl⟩
      op_legal := rfl
      rk_valid := rfl
      rounds := by decide +kernel }

/-! Witnesses: for each statement with hypotheses, a concrete input that meets them. -/

theorem witness_DecodeOfEncode : (Instr.reservedHigh 7#3 (BitVec.allOnes 60)).wellFormed = true := rfl
theorem witness_EncodeOfDecode : decode 0xC0000000000000004#68 = .ok (.cbcDec 0#60) := by decide +kernel
theorem witness_OnlyReadsWithDataAreRefused :
    (0x50000000000000001#68).getLsbD 67 = false ∧ (0x50000000000000001#68).toNat % 2 ^ 64 ≠ 0 := by decide +kernel
theorem witness_CommandDependsOnLowFourBits : (0x5#64) &&& 0xF#64 = (0xFFFFFFFFFFFFFFF5#64) &&& 0xF#64 := by decide +kernel

/-- A state whose host writes KEY in the next cycle. -/
def writing : State := { State.reset with inputs := [PortIn.play 0x80000000000000007#68, PortIn.quiet] }

theorem witness_StepRunsTheDecodedInstruction :
    writing.inputs = PortIn.play 0x80000000000000007#68 :: [PortIn.quiet] ∧
    (PortIn.play 0x80000000000000007#68).rst = false ∧ (PortIn.play 0x80000000000000007#68).busEn = true ∧
    decode (PortIn.play 0x80000000000000007#68).txWord = .ok (.wr .key 7#64) ∧
    decode 0x80000000000000007#68 = .ok (.wr .key 7#64) ∧
    decodeTableWord 64 0xFFFFFFFFFFFFFFFF = some (.reservedHigh 7#3 (BitVec.allOnes 60)) := by decide +kernel
theorem witness_StepWithoutAccess :
    ({ State.reset with inputs := [PortIn.quiet] } : State).inputs = PortIn.quiet :: [] ∧ PortIn.quiet.rst = false ∧
    PortIn.quiet.busEn = false ∧ State.reset.inputs = [] := ⟨rfl, rfl, rfl, rfl⟩
/-- In flight, a write in the cycle; and a read in the cycle. -/
theorem witness_ResetEdgeOverridesEverything :
    ({ inRnd 1#4 5#5 with inputs := [⟨true, true, true, 4#3, 1#64⟩] } : State).inputs =
      ⟨true, true, true, 4#3, 1#64⟩ :: [] ∧ (⟨true, true, true, 4#3, 1#64⟩ : PortIn).rst = true ∧
    (⟨true, true, false, 5#3, 0#64⟩ : PortIn).rst = true := ⟨rfl, rfl, rfl⟩
/-- R92's last index. -/
theorem witness_ReadReturnsTheRegister :
    (7#3, Reg.rkdata) ∈ [(0#3, Reg.key), (1#3, Reg.iv), (2#3, Reg.din), (3#3, Reg.dout), (4#3, Reg.cmd), (5#3, Reg.status),
      (6#3, Reg.ctrl), (7#3, Reg.rkdata)] := by decide
theorem witness_QuietEdgeKeepsEverything : ready.busy = false := rfl
theorem witness_EngineEdgeFrame : ready.done = true ∧ (inRnd 1#4 16#5).rkValid = true := ⟨rfl, rfl⟩
theorem witness_ReservedBitsReadZeroAndIgnoreWrites :
    (0xFFFFFFFFFFFFFFE5#64) &&& 0x1A#64 = (0#64) &&& 0x1A#64 ∧
    (0xFFFFFFFFFFFFFF0E#64) &&& 0xF1#64 = (0#64) &&& 0xF1#64 ∧
    (0xFFFFFFFFFFFFFFF0#64) &&& 0xF#64 = (0#64) &&& 0xF#64 := by decide +kernel
theorem witness_WriteOfADataRegister : ready.busy = false := rfl
theorem witness_DoneSetWins :
    (inKs 5#4 16#5).busy = true ∧ (idleCycle (inKs 5#4 16#5)).busy = false ∧ (0x2#64).getLsbD 1 = true := by
  decide +kernel
/-- A round that completes, as well as a KEYSCHED that does. -/
theorem witness_DoneSetWins_round :
    (inRnd 4#4 16#5).busy = true ∧ (idleCycle (inRnd 4#4 16#5)).busy = false := by decide +kernel
theorem witness_WriteWhileBusyIsDropped :
    (inKs 1#4 3#5).busy = true ∧ (inRnd 1#4 16#5).busy = true ∧
    (Reg.key = .key ∨ Reg.key = .iv ∨ Reg.key = .din ∨ Reg.key = .cmd) ∧
    (Reg.rkdata = .status ∨ Reg.rkdata = .ctrl ∨ Reg.rkdata = .dout ∨ Reg.rkdata = .rkdata) := by decide +kernel
theorem witness_ReservedOpcodeSetsErrCmd :
    State.reset.busy = false ∧ 6 ≤ (0x6#64).toNat % 16 ∧ 6 ≤ (0xFFFFFFFFFFFFFFFF#64).toNat % 16 := by decide +kernel

/-- irq asserted by DONE at rest, and by ERR_BUSY in flight. -/
def irqAtRest : State := { ready with irqEn := true }
def irqInFlight : State := { inKs 1#4 3#5 with irqEn := true, errBusy := true }

theorem witness_IrqHeldUntilCleared : irqAtRest.irq = true ∧ irqInFlight.irq = true ∧ irqInFlight.busy = true := by
  decide +kernel
/-- A STATUS write that clears another flag than DONE, and one that clears it; a CTRL write of bit 0 = 1, and of 0. -/
theorem test_irq_after_status_and_ctrl_writes :
    (stateAfter (execWr .status 0x18#64 irqAtRest)).map State.irq = some true ∧
    (stateAfter (execWr .status 0x2#64 irqAtRest)).map State.irq = some false ∧
    (stateAfter (execWr .ctrl 0x1#64 irqAtRest)).map State.irq = some true ∧
    (stateAfter (execWr .ctrl 0xF0#64 irqAtRest)).map State.irq = some false := by decide +kernel
/-- An accepted command clears DONE, so it lowers irq unless an error flag holds it (R257). -/
theorem test_irq_after_acceptance :
    (stateAfter (execEcbEnc 0#60 irqAtRest)).map State.irq = some false ∧
    (stateAfter (execEcbEnc 0#60 { irqAtRest with errCmd := true })).map State.irq = some true := by decide +kernel
theorem witness_NopChangesNothing :
    (0xFFFFFFFFFFFFFFF0#64).extractLsb' 0 4 = 0#4 ∧ ready.busy = false ∧ (inKs 1#4 3#5).busy = true := ⟨rfl, rfl, rfl⟩
/-- Both branches: a derivation (RK_VALID = 0, or KEYSCHED) and the rounds at once. -/
theorem witness_AcceptanceLatchesTheOperands :
    (Instr.cbcEnc 0#60, (0x3#4 : Opcode)) ∈ [(Instr.ecbEnc 0#60, (0x1#4 : Opcode)), (Instr.ecbDec 0#60, 0x2#4),
      (Instr.cbcEnc 0#60, 0x3#4), (Instr.cbcDec 0#60, 0x4#4), (Instr.keysched 0#60, 0x5#4)] ∧
    State.reset.busy = false ∧ State.reset.rkValid = false ∧ ready.busy = false ∧ ready.rkValid = true := by decide +kernel
theorem witness_KeyScheduleEdge :
    (inKs 1#4 1#5).phase = .ks ∧ 1 ≤ (inKs 1#4 1#5).cnt.toNat ∧ (inKs 1#4 1#5).cnt.toNat < 16 ∧
    (inKs 5#4 16#5).cnt.toNat = 16 ∧ (inKs 5#4 16#5).opL = 0x5#4 ∧ (inKs 1#4 16#5).opL ≠ 0x5#4 := by
  decide +kernel
theorem witness_RoundEdge :
    (inRnd 1#4 1#5).phase = .rnd ∧ 1 ≤ (inRnd 1#4 1#5).cnt.toNat ∧ (inRnd 1#4 15#5).cnt.toNat < 16 ∧
    (inRnd 2#4 16#5).cnt.toNat = 16 ∧ (inRnd 2#4 16#5).opL = 0x2#4 ∧ (inRnd 3#4 16#5).opL = 0x3#4 ∧
    (inRnd 4#4 16#5).opL = 0x4#4 ∧ 0x5#4 ≤ (inRnd 5#4 16#5).opL := by decide +kernel
theorem witness_CommandInFlight : Coherent accepted ∧ accepted.busy = true ∧ accepted.phase = .ks :=
  ⟨accepted_coherent, rfl, rfl⟩
theorem witness_CommandInFlight_rounds : Coherent acceptedRnd ∧ acceptedRnd.busy = true := ⟨acceptedRnd_coherent, rfl⟩
/-- KEY's own write, CTRL's own write, a KS edge, and the completion of a CBC command. -/
theorem witness_RegistersChangeOnlyByTheirCauses :
    stateAfter (execWr .key 7#64 State.reset) = some { State.reset with key := 7#64 } ∧
    (idleCycle (inRnd 4#4 16#5)).iv ≠ (inRnd 4#4 16#5).iv ∧
    (idleCycle (inRnd 4#4 16#5)).dout ≠ (inRnd 4#4 16#5).dout ∧
    (idleCycle { inKs 1#4 1#5 with c := 0xF0CCAAF#28 }).rk ≠ (inKs 1#4 1#5).rk := by decide +kernel
theorem witness_StepKeepsCoherent : Coherent State.reset ∧ step State.reset = .next State.reset :=
  ⟨reset_coherent, rfl⟩
theorem witness_StepKeepsCoherent_busy : Coherent accepted ∧ step accepted = .next (idleCycle accepted) :=
  ⟨accepted_coherent, rfl⟩
/-- N is 32 from reset and 16 with the keys derived; the host's list is empty, so no reset comes. -/
theorem witness_CommandContract :
    (Instr.ecbEnc 0#60, 32, encrypt 0#64 0#64, (0#64 : Block)) ∈
      [(Instr.ecbEnc 0#60, (if State.reset.rkValid then 16 else 32), encrypt State.reset.din State.reset.key, State.reset.iv)] ∧
    Coherent State.reset ∧ State.reset.busy = false ∧ noResetFor 32 State.reset :=
  ⟨.head _, reset_coherent, rfl, by intro p hp; cases hp⟩
/-- And a host that accesses the port meanwhile. -/
theorem witness_CommandContract_busy_host :
    Coherent { ready with inputs := [PortIn.play 0xA0000000000000007#68] } ∧
    noResetFor 16 { ready with inputs := [PortIn.play 0xA0000000000000007#68] } := by
  refine ⟨coherent_of_rest rfl rfl (fun _ => rfl), ?_⟩
  have h : ∀ p ∈ ([PortIn.play 0xA0000000000000007#68] : List PortIn).take 16, p.rst = false := by decide +kernel
  exact h
theorem witness_PollReadsBusyLatencyTimes : Coherent ready ∧ ready.busy = false ∧ CmdName.cbcDec ≠ .nop :=
  ⟨ready_coherent, rfl, by decide⟩

/-- A row of each kind of R290's table, and the last statement's premises for a reserved word and for ECB_ENC from reset. -/
theorem witness_LatencyTable :
    (1 ≤ (0x1#4).toNat ∧ (0x4#4).toNat ≤ 4) ∧ (0x0#4).toNat = 0 ∧ 6 ≤ (0x6#4).toNat ∧ 6 ≤ (0xF#4).toNat ∧
    Coherent State.reset ∧ State.reset.busy = false ∧ noResetFor (latency (cmdOp 0xF#64) false) State.reset ∧
    noResetFor (latency (cmdOp 0x1#64) false) State.reset :=
  ⟨by decide, by decide, by decide, by decide, reset_coherent, rfl, (by intro p hp; cases hp), by intro p hp; cases hp⟩
/-- R290's table: NOP, ECB_ENC twice, KEYSCHED, and the two ends of the reserved opcodes. -/
theorem test_latency :
    latency 0x0#4 false = 0 ∧ latency 0x1#4 false = 32 ∧ latency 0x1#4 true = 16 ∧ latency 0x5#4 true = 16 ∧
    latency 0x6#4 false = 0 ∧ latency 0xF#4 true = 0 := by decide

/-- The reset state with other hidden contents: round keys, datapath and the model's count. -/
def otherHidden : State :=
  { State.reset with
    rk := Vector.replicate 16 0x123456789ABC#48, opL := 4#4, c := 1#28, d := 2#28, l := 3#32, r := 4#32
    chainL := 5#64, cinL := 6#64, freeCount := 7 }

theorem witness_HiddenStateIsUnobservable :
    Coherent State.reset ∧ Coherent otherHidden ∧ State.reset.busy = false ∧ otherHidden.busy = false ∧
    State.reset.key = otherHidden.key ∧ State.reset.rkValid = otherHidden.rkValid ∧
    State.reset.inputs = otherHidden.inputs ∧ State.reset ≠ otherHidden :=
  ⟨reset_coherent, coherent_of_rest rfl rfl (by intro h; cases h), rfl, rfl, rfl, rfl, rfl, by decide +kernel⟩
theorem witness_SubstitutionIsEightLanes : 1 ≤ 8 ∧ 8 ≤ 8 := by decide
/-- V12's two keys. -/
theorem witness_ParityBitsDoNotMatter :
    (0x133457799BBCDFF1#64) &&& 0xFEFEFEFEFEFEFEFE#64 = (0x123456789ABCDEF0#64) &&& 0xFEFEFEFEFEFEFEFE#64 := by
  decide +kernel
/-- R151's table, its second and third rows. -/
theorem witness_EqualSubkeyKeys :
    halvesAt 0x1E1E1E1E0E0E0E0E#64 0 = (0#28, 0xFFFFFFF#28) ∧ halvesAt 0xE0E0E0E0F1F1F1F1#64 0 = (0xFFFFFFF#28, 0#28) := by
  decide +kernel
theorem witness_CbcChainingDependency : (0x68652074696D6520#64) ≠ 0x68652074696D6521#64 := by decide +kernel
theorem witness_CbcDecryptionLocality :
    0 < ([1#64, 2#64] : List Block).length ∧ 1 < ([1#64, 2#64] : List Block).length := by decide
theorem witness_CbcSequenceByCommands : Coherent ready ∧ ready.busy = false := ⟨ready_coherent, rfl⟩
theorem witness_HostPackingAndAdapter : 0 < 8 ∧ 7 < 8 ∧ adapterReg 56 8 ≠ none := by decide +kernel
/-- CLRST at rest clears DONE, and in the cycle of a completing edge leaves it set. -/
theorem test_clrst :
    (runHostProgram [.clrst] ready).map (fun r => readReg r.1 .status) = some 0x4#64 ∧
    (runHostProgram [.clrst] { inKs 5#4 16#5 with errCmd := true }).map (fun r => readReg r.1 .status) = some 0x6#64 := by
  decide +kernel

end Sys2Proof.Tests
end

/-! PROOFS. One equation for the whole edge (spec/44_commands.md R212), and a completion told from BUSY. -/

namespace Sys2Proof.Machine

/-- The edge step (spec/44_commands.md R212) in one equation: the host's write over the engine's part, with DONE also set by
a completion. -/
theorem edge_eq (s : State) (write : State → State) :
    edge s write =
      { write (engineEdge s).1 with done := (engineEdge s).2 || (write (engineEdge s).1).done } := by
  unfold edge
  cases (engineEdge s).2 <;> rfl

/-- A completion, told from BUSY before and after the cycle without an access. -/
theorem engineEdge_completes_eq (s : State) : (engineEdge s).2 = (s.busy && !(idleCycle s).busy) := by
  have hb : (idleCycle s).busy = (engineEdge s).1.busy := by
    rw [idleCycle, quietCycle, edge_eq]
    rfl
  rw [Bool.eq_iff_iff, engineEdge_completes_iff, hb]
  simp

end Sys2Proof.Machine

/-! PROOFS. The invariant of the engine (`Coherent`): what it says in each phase, what it does not speak of, and that every
operation of an edge keeps it. -/

namespace Sys2Proof.Machine

theorem coherent_idle_iff {s : State} (hp : s.phase = .idle) :
    Coherent s ↔ s.cnt = 0#5 ∧ (s.rkValid = true → s.rk = keySchedule s.key) := by
  constructor
  · intro h
    exact ⟨h.at_rest hp, h.store⟩
  · rintro ⟨hc, hs⟩
    exact ⟨hs, fun _ => hc, by simp [hp], by simp [hp]⟩

theorem coherent_ks_iff {s : State} (hp : s.phase = .ks) : Coherent s ↔ DerivingKeys s := by
  constructor
  · intro h
    exact h.deriving_keys hp
  · intro h
    exact ⟨by simp [h.rk_masked], by simp [hp], fun _ => h, by simp [hp]⟩

theorem coherent_rnd_iff {s : State} (hp : s.phase = .rnd) :
    Coherent s ↔ RunningRounds s ∧ s.rk = keySchedule s.key := by
  constructor
  · intro h
    have hr := h.running_rounds hp
    exact ⟨hr, h.store hr.rk_valid⟩
  · rintro ⟨h, hs⟩
    exact ⟨fun _ => hs, by simp [hp], by simp [hp], fun _ => h⟩

/-- In a busy phase the invariant holds the counter in 1..16, DONE at 0 and the operands as latched. -/
theorem Coherent.inFlight {s : State} (h : Coherent s) (hb : s.busy = true) : InFlight s := by
  rcases busy_eq_true_iff.mp hb with hp | hp
  · exact (h.deriving_keys hp).inFlight
  · exact (h.running_rounds hp).inFlight

/-- The part of a state that the invariant speaks of: KEY, IV, DIN, RK with RK_VALID, the hidden registers, and DONE while
BUSY = 1. -/
def invariantPart (s : State) : State :=
  { State.reset with
    key := s.key, iv := s.iv, din := s.din, done := s.busy && s.done, rkValid := s.rkValid, rk := s.rk
    phase := s.phase, cnt := s.cnt, opL := s.opL, c := s.c, d := s.d, l := s.l, r := s.r
    chainL := s.chainL, cinL := s.cinL }

theorem inFlight_invariantPart_iff {s : State} (hb : s.busy = true) : InFlight (invariantPart s) ↔ InFlight s := by
  have hdone : (invariantPart s).done = s.done := by simp [invariantPart, hb]
  constructor
  · intro h
    exact ⟨h.cnt_pos, h.cnt_le, hdone ▸ h.done_clear, h.chain_latched, h.cin_latched⟩
  · intro h
    exact ⟨h.cnt_pos, h.cnt_le, hdone.trans h.done_clear, h.chain_latched, h.cin_latched⟩

theorem coherent_invariantPart_iff (s : State) : Coherent (invariantPart s) ↔ Coherent s := by
  cases hp : s.phase with
  | idle => exact (coherent_idle_iff (s := invariantPart s) hp).trans (coherent_idle_iff hp).symm
  | ks =>
    have hflight := inFlight_invariantPart_iff (busy_eq_true_iff.mpr (.inl hp))
    rw [coherent_ks_iff hp, coherent_ks_iff (s := invariantPart s) hp]
    constructor
    · intro h
      exact ⟨hflight.mp h.inFlight, h.op_legal, h.rk_masked, h.halves, h.derived, h.waiting⟩
    · intro h
      exact ⟨hflight.mpr h.inFlight, h.op_legal, h.rk_masked, h.halves, h.derived, h.waiting⟩
  | rnd =>
    have hflight := inFlight_invariantPart_iff (busy_eq_true_iff.mpr (.inr hp))
    rw [coherent_rnd_iff hp, coherent_rnd_iff (s := invariantPart s) hp]
    constructor
    · rintro ⟨h, hs⟩
      exact ⟨⟨hflight.mp h.inFlight, h.op_legal, h.rk_valid, h.rounds⟩, hs⟩
    · rintro ⟨h, hs⟩
      exact ⟨⟨hflight.mpr h.inFlight, h.op_legal, h.rk_valid, h.rounds⟩, hs⟩

/-- The frame rule of the invariant: a state with the same `invariantPart` is coherent too. -/
theorem Coherent.of_invariantPart_eq {s t : State} (h : Coherent s) (e : invariantPart t = invariantPart s) :
    Coherent t := by
  rw [← coherent_invariantPart_iff, e, coherent_invariantPart_iff]
  exact h

/-! Operations that do not touch the engine's part of the state. -/

theorem Coherent.takePort {s : State} (h : Coherent s) : Coherent (takePort s) := h.of_invariantPart_eq rfl

theorem Coherent.driveRdata {s : State} (h : Coherent s) (v : Block) : Coherent (driveRdata v s) :=
  h.of_invariantPart_eq rfl

theorem Coherent.setDone {s : State} (h : Coherent s) (hb : s.busy = false) : Coherent (setDone s) :=
  h.of_invariantPart_eq (by simp [invariantPart, hb])

theorem Coherent.clearStatus {s : State} (h : Coherent s) (v : Block) : Coherent (clearStatus v s) := by
  refine h.of_invariantPart_eq ?_
  cases hb : s.busy with
  | false => simp [invariantPart, hb]
  | true => simp [invariantPart, (h.inFlight hb).done_clear]

/-! The host's writes (spec/44_commands.md R211). -/

theorem isCommandOp_of_legal {op : Opcode} (h0 : op ≠ opNop) (h5 : op.toNat ≤ 5) : isCommandOp op = true := by
  revert h0 h5
  revert op
  decide

theorem isBlockOp_of_isCommandOp {op : Opcode} (h : isCommandOp op = true) (hks : op ≠ opKeysched) :
    isBlockOp op = true := by
  simpa [isCommandOp, hks] using h

/-- Each phase starts with the counter at 1 (R214, spec/41_key_schedule.md R147). -/
theorem inFlight_of_cnt_one {t : State} (hc : t.cnt = 1#5) (hd : t.done = false) (hch : t.chainL = t.iv)
    (hci : t.cinL = t.din) : InFlight t :=
  ⟨by simp [hc], by simp [hc], hd, hch, hci⟩

/-- Acceptance (R214) starts a derivation with nothing derived, or the rounds with none done. -/
theorem Coherent.accept {s : State} (h : Coherent s) {op : Opcode} (h0 : op ≠ opNop) (h5 : op.toNat ≤ 5) :
    Coherent (accept s op s) := by
  unfold Machine.accept
  split
  case isTrue =>
    refine (coherent_ks_iff rfl).mpr
      ⟨inFlight_of_cnt_one rfl rfl rfl rfl, isCommandOp_of_legal h0 h5, rfl, rfl, ?_, rfl⟩
    intro r h1 hlt
    exact absurd hlt (Nat.not_lt.mpr h1)
  case isFalse hn =>
    obtain ⟨hks, hv⟩ : op ≠ opKeysched ∧ s.rkValid = true := by simpa using hn
    have hop := isBlockOp_of_isCommandOp (isCommandOp_of_legal h0 h5) hks
    exact (coherent_rnd_iff rfl).mpr ⟨⟨inFlight_of_cnt_one rfl rfl rfl rfl, hop, hv, rfl⟩, h.store hv⟩

/-- Every write of the host keeps the invariant over the engine's part `t` of the edge, which with BUSY = 0 is `s`. -/
theorem HostWrite.keeps_coherent {s t : State} {write : State → State} (hw : HostWrite s write)
    (ht : Coherent t) (hrest : s.busy = false → t = s) : Coherent (write t) := by
  have idle (hb : s.busy = false) : t.phase = .idle := by
    rw [hrest hb]; exact busy_eq_false_iff.mp hb
  cases hw with
  | none => exact ht
  | status v => exact ht.clearStatus v
  | ctrl v => exact ht.of_invariantPart_eq rfl
  | dropped _ => exact ht.of_invariantPart_eq rfl
  | key v hb => exact (coherent_idle_iff (s := loadKey v t) (idle hb)).mpr ⟨ht.at_rest (idle hb), by simp⟩
  | iv v hb => exact (coherent_idle_iff (s := loadIv v t) (idle hb)).mpr ⟨ht.at_rest (idle hb), ht.store⟩
  | din v hb => exact (coherent_idle_iff (s := loadDin v t) (idle hb)).mpr ⟨ht.at_rest (idle hb), ht.store⟩
  | reserved _ => exact ht.of_invariantPart_eq rfl
  | command op hb h0 h5 =>
    obtain rfl := hrest hb
    exact ht.accept h0 h5

/-! The engine's part of an edge. -/

/-- Before the last edge of a phase the counter counts on within its five bits (R31). -/
theorem InFlight.toNat_cnt_succ {s : State} (h : InFlight s) : (s.cnt + 1#5).toNat = s.cnt.toNat + 1 := by
  have hle := h.cnt_le
  rw [BitVec.toNat_add, BitVec.toNat_ofNat]
  omega

theorem InFlight.cnt_succ_le {s : State} (h : InFlight s) (hc : s.cnt ≠ 16#5) : s.cnt.toNat + 1 ≤ 16 :=
  Nat.lt_of_le_of_ne h.cnt_le fun e => hc (BitVec.eq_of_toNat_eq e)

/-- What holds in every busy phase holds on after an edge that only counts on. -/
theorem InFlight.count {s : State} (h : InFlight s) (hc : s.cnt ≠ 16#5) : InFlight { s with cnt := s.cnt + 1#5 } := by
  have hsucc := h.toNat_cnt_succ
  refine ⟨?_, ?_, h.done_clear, h.chain_latched, h.cin_latched⟩
  · exact hsucc ▸ Nat.le_add_left 1 _
  · exact hsucc ▸ h.cnt_succ_le hc

/-- A key-schedule edge rotates (C, D) to the halves of its own index (R147, R148). -/
theorem DerivingKeys.rotated {s : State} (h : DerivingKeys s) :
    rotateHalves s.cnt.toNat (s.c, s.d) = halvesAt s.key s.cnt.toNat := by
  obtain ⟨k, hk⟩ : ∃ k, s.cnt.toNat = k + 1 := ⟨_, (Nat.sub_add_cancel h.inFlight.cnt_pos).symm⟩
  rw [h.halves, hk]
  rfl

/-- The store after a key-schedule edge: the entry of its index is derived too. -/
theorem DerivingKeys.stored {s : State} (h : DerivingKeys s) {r : Nat} (h1 : 1 ≤ r) (hr : r ≤ s.cnt.toNat) :
    rkRead (rkWrite s.rk s.cnt.toNat (subkeyOf (rotateHalves s.cnt.toNat (s.c, s.d)))) r = subkey s.key r := by
  have hle := h.inFlight.cnt_le
  rcases Nat.lt_or_eq_of_le hr with hlt | rfl
  · have hplace : rkPlace s.cnt.toNat ≠ rkPlace r := by
      rw [rkPlace_of_range h.inFlight.cnt_pos hle, rkPlace_of_range h1 (by omega)]
      omega
    rw [rkRead_rkWrite_other _ _ hplace, h.derived r h1 hlt]
  · rw [rkRead_rkWrite_same, h.rotated, subkey]

/-- The sixteenth key-schedule edge leaves the whole key schedule in the store (R30). -/
theorem DerivingKeys.stored_all {s : State} (h : DerivingKeys s) (hc : s.cnt = 16#5) :
    rkWrite s.rk 16 (subkeyOf (rotateHalves 16 (s.c, s.d))) = keySchedule s.key := by
  have hn : s.cnt.toNat = 16 := by rw [hc]; rfl
  refine rkStore_ext fun r h1 h2 => ?_
  have hr := h.stored h1 (hn.symm ▸ h2)
  rw [hn] at hr
  rw [hr, rkRead_keySchedule s.key h1 h2]

/-- A round edge computes the halves of its own index (R170, R171). -/
theorem RunningRounds.nextRoundHalves_eq {s : State} (h : RunningRounds s) :
    nextRoundHalves s = roundsDone s s.cnt.toNat := by
  obtain ⟨k, hk⟩ : ∃ k, s.cnt.toNat = k + 1 := ⟨_, (Nat.sub_add_cancel h.inFlight.cnt_pos).symm⟩
  rw [nextRoundHalves, h.rounds, hk]
  rfl

theorem DerivingKeys.coherent_ksEdge {s : State} (h : DerivingKeys s) (hp : s.phase = .ks) :
    Coherent (ksEdge s).1 := by
  by_cases hc : s.cnt = 16#5
  · by_cases hop : s.opL = opKeysched
    · rw [ksEdge_completes hc hop]
      exact (coherent_idle_iff rfl).mpr ⟨rfl, fun _ => h.stored_all hc⟩
    · rw [ksEdge_toRounds hc hop]
      obtain ⟨-, -, hdone, hchain, hcin⟩ := h.inFlight
      have hblock := isBlockOp_of_isCommandOp h.op_legal hop
      exact (coherent_rnd_iff rfl).mpr
        ⟨⟨inFlight_of_cnt_one rfl hdone hchain hcin, hblock, rfl, h.waiting⟩, h.stored_all hc⟩
  · rw [ksEdge_early hc]
    have hsucc := h.inFlight.toNat_cnt_succ
    obtain ⟨hpos, hle, hdone, hchain, hcin⟩ := h.inFlight.count hc
    refine (coherent_ks_iff (by exact hp)).mpr
      ⟨⟨hpos, hle, hdone, hchain, hcin⟩, h.op_legal, h.rk_masked, ?_, ?_, h.waiting⟩
    · simpa [hsucc] using h.rotated
    · intro r h1 hlt
      exact h.stored h1 (by simpa [hsucc, Nat.lt_succ_iff] using hlt)

theorem RunningRounds.coherent_rndEdge {s : State} (h : RunningRounds s) (hp : s.phase = .rnd)
    (hs : s.rk = keySchedule s.key) : Coherent (rndEdge s).1 := by
  by_cases hc : s.cnt = 16#5
  · rw [rndEdge_completes hc]
    exact (coherent_idle_iff (by simp)).mpr (by simp [hs])
  · rw [rndEdge_early hc]
    obtain ⟨hpos, hle, hdone, hchain, hcin⟩ := h.inFlight.count hc
    have hrounds : nextRoundHalves s = roundsDone s ((s.cnt + 1#5).toNat - 1) := by
      rw [h.inFlight.toNat_cnt_succ]; exact h.nextRoundHalves_eq
    exact (coherent_rnd_iff (by exact hp)).mpr
      ⟨⟨⟨hpos, hle, hdone, hchain, hcin⟩, h.op_legal, h.rk_valid, hrounds⟩, hs⟩

theorem Coherent.engineEdge {s : State} (h : Coherent s) : Coherent (engineEdge s).1 := by
  cases hp : s.phase with
  | idle => rw [engineEdge_idle hp]; exact h
  | ks =>
    rw [engineEdge_ks hp]
    exact (h.deriving_keys hp).coherent_ksEdge hp
  | rnd =>
    obtain ⟨hr, hs⟩ := (coherent_rnd_iff hp).mp h
    rw [engineEdge_rnd hp]
    exact hr.coherent_rndEdge hp hs

/-! The edge, the reset edge and the step. -/

/-- While BUSY = 1 no write of the host changes the phase (R211, spec/60_exceptions.md R251). -/
theorem HostWrite.phase_of_busy {s : State} {write : State → State} (hw : HostWrite s write) (hb : s.busy = true)
    (t : State) : (write t).phase = t.phase := by
  cases hw
  case none | status | ctrl | dropped => rfl
  case key h | iv h | din h | reserved h => exact absurd (hb.symm.trans h) (by decide)
  case command h _ _ => exact absurd (hb.symm.trans h) (by decide)

theorem Coherent.edge {s : State} (h : Coherent s) {write : State → State} (hw : HostWrite s write) :
    Coherent (edge s write) := by
  have ht : Coherent (write (Machine.engineEdge s).1) :=
    hw.keeps_coherent h.engineEdge fun hb => by rw [engineEdge_idle (busy_eq_false_iff.mp hb)]
  unfold Machine.edge
  split
  case isFalse => exact ht
  case isTrue hcomp =>
    obtain ⟨hb, hb'⟩ := (engineEdge_completes_iff s).mp hcomp
    exact ht.setDone ((busy_eq_of_phase_eq (hw.phase_of_busy hb _)).trans hb')

theorem coherent_resetCycle (p : PortIn) (s : State) : Coherent (resetCycle p s) :=
  (coherent_idle_iff rfl).mpr ⟨rfl, by simp [resetCycle, State.reset]⟩

theorem Coherent.cycle {s t : State} (h : Coherent s) {p : PortIn} (hc : cycle p s = .next t) : Coherent t := by
  rcases cycle_cases p s with ⟨-, he⟩ | ⟨-, rdata, write, hw, he⟩
  · obtain rfl : resetCycle p s = t := by simpa [he] using hc
    exact coherent_resetCycle p s
  · obtain rfl : Machine.driveRdata rdata (Machine.edge s write) = t := by simpa [he] using hc
    exact (h.edge hw).driveRdata rdata

/-- Settles O33: a step is a reset edge or an edge with one host write, and each of its operations keeps the invariant. -/
theorem stepKeepsCoherent : Obligations.StepKeepsCoherent := by
  intro s t h hstep
  exact h.takePort.cycle hstep

/-- Settles O32: the reset record is at rest with RK_VALID = 0. -/
theorem resetIsCoherent : Obligations.ResetIsCoherent :=
  (coherent_idle_iff rfl).mpr ⟨rfl, by simp [State.reset]⟩

end Sys2Proof.Machine

/-! PROOFS. What an edge does is a function of the port lines: one form for every access, with the write named. -/

namespace Sys2Proof.Machine

theorem cmdWrite_nop (s : State) : cmdWrite s opNop = id := by
  funext t; simp [cmdWrite]

theorem cmdWrite_legal (s : State) {op : Opcode} (h0 : op ≠ opNop) (h5 : op.toNat ≤ 5) :
    cmdWrite s op = accept s op := by
  funext t; simp [cmdWrite, h0, h5]

theorem cmdWrite_reserved (s : State) {op : Opcode} (h6 : 6 ≤ op.toNat) : cmdWrite s op = raiseErrCmd := by
  have h0 : op ≠ opNop := by rintro rfl; exact absurd h6 (by decide)
  funext t; simp [cmdWrite, h0, Nat.not_le.mpr h6]

theorem exec_decodeCmd_reserved {w : Block} (h6 : 6 ≤ (cmdOp w).toNat) (s : State) :
    exec (decodeCmd w) s = .next (writeCycle s (unlessBusy s raiseErrCmd)) := by
  unfold decodeCmd
  split
  case h_7 | h_8 | h_9 => rfl
  all_goals omega

/-- A command word has the effect R211 gives a write of it to CMD (R90, R213). -/
theorem exec_decodeCmd (w : Block) (s : State) : exec (decodeCmd w) s = exec (.wr .cmd w) s := by
  have hwr : exec (.wr .cmd w) s = .next (writeCycle s (unlessBusy s (cmdWrite s (cmdOp w)))) := rfl
  obtain ⟨hnop, hee, hed, hce, hcd, hks⟩ := decodeCmd_of_op w
  rw [hwr]
  rcases op_cases (cmdOp w) with h | h | h | h | h | h | ⟨low, h⟩ | ⟨low, h⟩
  · rw [hnop h, h, cmdWrite_nop]; rfl
  · rw [hee h, h, cmdWrite_legal s (by decide) (by decide)]; rfl
  · rw [hed h, h, cmdWrite_legal s (by decide) (by decide)]; rfl
  · rw [hce h, h, cmdWrite_legal s (by decide) (by decide)]; rfl
  · rw [hcd h, h, cmdWrite_legal s (by decide) (by decide)]; rfl
  · rw [hks h, h, cmdWrite_legal s (by decide) (by decide)]; rfl
  · have h6 : 6 ≤ (cmdOp w).toNat := by rw [h]; clear h; revert low; decide
    rw [exec_decodeCmd_reserved h6, cmdWrite_reserved s h6]
  · have h6 : 6 ≤ (cmdOp w).toNat := by rw [h]; clear h; revert low; decide
    rw [exec_decodeCmd_reserved h6, cmdWrite_reserved s h6]

/-- The host's write in a cycle with rst = 0, as R211 gives it: none in a read or without an access. -/
def portWrite (p : PortIn) (s : State) : State → State :=
  if p.busEn && p.busWe then writeReg s (Reg.ofIdx p.busIdx) p.busWdata else id

/-- A cycle with rst = 0 in one form for every access and none (R212, spec/20_memory.md R63). -/
theorem cycle_eq_edge {p : PortIn} (hr : p.rst = false) (s : State) :
    cycle p s = .next (driveRdata (portRdata p s) (edge s (portWrite p s))) := by
  cases he : p.busEn with
  | false => simp [cycle, hr, he, portRdata, portWrite, idleCycle, quietCycle]
  | true =>
    have hd := decode_portWord p
    cases hw : p.busWe with
    | false => simp [cycle, hr, he, hd, hw, portRdata, portWrite, exec, execRd, quietCycle]
    | true =>
      have hx : exec (if Reg.ofIdx p.busIdx = .cmd then decodeCmd p.busWdata
          else .wr (Reg.ofIdx p.busIdx) p.busWdata) s = exec (.wr (Reg.ofIdx p.busIdx) p.busWdata) s := by
        split
        case isTrue h => rw [h, exec_decodeCmd]
        case isFalse => rfl
      simp only [cycle, hr, he, hd, hw, portRdata, portWrite]
      exact hx

end Sys2Proof.Machine

/-! PROOFS. What a host can tell of a coherent state: its registers and flags, BUSY with the place in the phases, and the
command in flight. All else is a function of these or unobservable, so they form a bisimulation. -/

namespace Sys2Proof.Machine

/-- A state with everything at its reset value that a host cannot tell of a coherent state. -/
def hostView (s : State) : State :=
  { State.reset with
    key := s.key, iv := s.iv, din := s.din, dout := s.dout
    done := s.done, rkValid := s.rkValid, errCmd := s.errCmd, errBusy := s.errBusy
    irqEn := s.irqEn, rkSel := s.rkSel, phase := s.phase, cnt := s.cnt
    opL := if s.busy then s.opL else 0#4
    inputs := s.inputs }

/-- What is a function of the view has one value in states with one view. -/
theorem eq_of_hostView_eq {α : Type} (f : State → α) (hf : ∀ u, f (hostView u) = f u) {s t : State}
    (e : hostView s = hostView t) : f s = f t := by
  rw [← hf s, ← hf t, e]

theorem busy_of_hostView_eq {s t : State} (e : hostView s = hostView t) : s.busy = t.busy :=
  eq_of_hostView_eq State.busy (fun _ => rfl) e

theorem hostView_opL {s : State} (hb : s.busy = true) : (hostView s).opL = s.opL := if_pos hb

/-! Each write has the same visible effect over states with the same view. -/

theorem hostView_unlessBusy_congr {s s' t t' : State} {w w' : State → State} (hs : hostView s = hostView s')
    (ht : hostView t = hostView t') (hw : hostView (w t) = hostView (w' t')) :
    hostView (unlessBusy s w t) = hostView (unlessBusy s' w' t') := by
  unfold unlessBusy
  rw [busy_of_hostView_eq hs]
  split
  · exact congrArg raiseErrBusy ht
  · exact hw

theorem hostView_accept (s t : State) (op : Opcode) :
    hostView (accept s op t) = hostView (accept (hostView s) op (hostView t)) := by
  have hv : (hostView s).rkValid = s.rkValid := rfl
  unfold accept
  rw [hv]
  split <;> rfl

theorem hostView_cmdWrite_congr {s s' t t' : State} (hs : hostView s = hostView s')
    (ht : hostView t = hostView t') (op : Opcode) : hostView (cmdWrite s op t) = hostView (cmdWrite s' op t') := by
  unfold cmdWrite
  split
  · exact ht
  split
  · rw [hostView_accept, hs, ht, ← hostView_accept]
  · exact congrArg raiseErrCmd ht

theorem hostView_writeReg_congr {s s' t t' : State} (hs : hostView s = hostView s')
    (ht : hostView t = hostView t') (reg : Reg) (v : Block) :
    hostView (writeReg s reg v t) = hostView (writeReg s' reg v t') := by
  cases reg with
  | key => exact hostView_unlessBusy_congr hs ht (congrArg (loadKey v) ht)
  | iv => exact hostView_unlessBusy_congr hs ht (congrArg (loadIv v) ht)
  | din => exact hostView_unlessBusy_congr hs ht (congrArg (loadDin v) ht)
  | cmd => exact hostView_unlessBusy_congr hs ht (hostView_cmdWrite_congr hs ht _)
  | status => exact congrArg (clearStatus v) ht
  | ctrl => exact congrArg (loadCtrl v) ht
  | dout | rkdata => exact ht

theorem hostView_portWrite_congr {s s' t t' : State} (hs : hostView s = hostView s')
    (ht : hostView t = hostView t') (p : PortIn) :
    hostView (portWrite p s t) = hostView (portWrite p s' t') := by
  unfold portWrite
  split
  · exact hostView_writeReg_congr hs ht _ _
  · exact ht

/-! The engine's part of an edge, as a function of the view. -/

/-- The round edge on views: what it delivers is the command's result (spec/44_commands.md R217). -/
def rndEdgeView (x : State) : State :=
  let result := commandResult x.opL x.din x.iv x.key
  if x.cnt = 16#5 then
    { x with dout := result, iv := chainNext x.opL result x.din x.iv, phase := .idle, cnt := 0#5, opL := 0#4 }
  else { x with cnt := x.cnt + 1#5 }

/-- The engine's part of an edge on views. -/
def engineEdgeView (x : State) : State :=
  match x.phase with
  | .idle => x
  | .ks => hostView (ksEdge x).1
  | .rnd => rndEdgeView x

/-- A key-schedule edge shows nothing of the halves and the store. -/
theorem hostView_ksEdge {s : State} (hp : s.phase = .ks) :
    hostView (ksEdge s).1 = hostView (ksEdge (hostView s)).1 := by
  have hop' : (hostView s).opL = s.opL := hostView_opL (busy_eq_true_iff.mpr (.inl hp))
  by_cases hc : s.cnt = 16#5
  · have hc' : (hostView s).cnt = 16#5 := hc
    by_cases hop : s.opL = opKeysched
    · rw [ksEdge_completes hc hop, ksEdge_completes hc' (hop'.trans hop)]
      rfl
    · rw [ksEdge_toRounds hc hop, ksEdge_toRounds hc' (hop' ▸ hop)]
      simp [hostView, State.busy, hp]
  · have hc' : (hostView s).cnt ≠ 16#5 := hc
    rw [ksEdge_early hc, ksEdge_early hc']
    simp [hostView, State.busy, hp]

/-- The block of the last round edge is the command's result for the operands, which are as latched (R215, R217). -/
theorem RunningRounds.delivered {s : State} (h : RunningRounds s) (hs : s.rk = keySchedule s.key) (hc : s.cnt = 16#5) :
    chainOutput s.opL (preOutput (nextRoundHalves s)) s.chainL = commandResult s.opL s.din s.iv s.key := by
  rw [h.nextRoundHalves_eq, roundsDone, hs, h.inFlight.chain_latched, h.inFlight.cin_latched, hc]
  rfl

/-- A round edge of a coherent state shows the count, and at its end the command's result. -/
theorem hostView_rndEdge {s : State} (h : Coherent s) (hp : s.phase = .rnd) :
    hostView (rndEdge s).1 = rndEdgeView (hostView s) := by
  obtain ⟨hr, hs⟩ := (coherent_rnd_iff hp).mp h
  have hop' : (hostView s).opL = s.opL := hostView_opL (busy_eq_true_iff.mpr (.inr hp))
  by_cases hc : s.cnt = 16#5
  · have hc' : (hostView s).cnt = 16#5 := hc
    rw [rndEdge_completes hc, rndEdgeView, if_pos hc', hop']
    simp [hostView, hr.op_legal, hr.delivered hs hc, hr.inFlight.cin_latched]
  · have hc' : (hostView s).cnt ≠ 16#5 := hc
    rw [rndEdge_early hc, rndEdgeView, if_neg hc']
    rfl

theorem hostView_engineEdge {s : State} (h : Coherent s) :
    hostView (engineEdge s).1 = engineEdgeView (hostView s) := by
  have hphase : (hostView s).phase = s.phase := rfl
  unfold engineEdgeView
  rw [hphase]
  cases hp : s.phase with
  | idle => rw [engineEdge_idle hp]
  | ks => rw [engineEdge_ks hp]; exact hostView_ksEdge hp
  | rnd => rw [engineEdge_rnd hp]; exact hostView_rndEdge h hp

/-! The edge, the cycle and the outputs. -/

/-- Two coherent states that a host cannot tell apart: the relation of the bisimulation. -/
structure SameView (s t : State) : Prop where
  left : Coherent s
  right : Coherent t
  view : hostView s = hostView t

theorem SameView.completes_eq {s t : State} (h : SameView s t) : (engineEdge s).2 = (engineEdge t).2 := by
  have hafter : hostView (engineEdge s).1 = hostView (engineEdge t).1 := by
    rw [hostView_engineEdge h.left, hostView_engineEdge h.right, h.view]
  rw [Bool.eq_iff_iff, engineEdge_completes_iff, engineEdge_completes_iff, busy_of_hostView_eq h.view,
    busy_of_hostView_eq hafter]

theorem SameView.hostView_edge {s t : State} (h : SameView s t) (p : PortIn) :
    hostView (edge s (portWrite p s)) = hostView (edge t (portWrite p t)) := by
  have hafter : hostView (engineEdge s).1 = hostView (engineEdge t).1 := by
    rw [hostView_engineEdge h.left, hostView_engineEdge h.right, h.view]
  have hwrite := hostView_portWrite_congr h.view hafter p
  unfold edge
  rw [h.completes_eq]
  split
  · exact congrArg setDone hwrite
  · exact hwrite

/-- A reset edge shows the reset record, whatever RK's free values are (spec/70_reset_and_hazards.md R280). -/
theorem hostView_resetCycle (p : PortIn) (s : State) :
    hostView (resetCycle p s) = { State.reset with inputs := s.inputs } := rfl

/-- One cycle keeps two states indistinguishable, a reset edge with its free values included. -/
theorem SameView.cycle {s t : State} (h : SameView s t) (p : PortIn) :
    ∃ s' t', cycle p s = .next s' ∧ cycle p t = .next t' ∧ SameView s' t' := by
  cases hr : p.rst with
  | true =>
    have hinputs : s.inputs = t.inputs := eq_of_hostView_eq State.inputs (fun _ => rfl) h.view
    refine ⟨resetCycle p s, resetCycle p t, by simp [Machine.cycle, hr], by simp [Machine.cycle, hr],
      coherent_resetCycle p s, coherent_resetCycle p t, ?_⟩
    rw [hostView_resetCycle, hostView_resetCycle, hinputs]
  | false =>
    have hs := cycle_eq_edge hr s
    have ht := cycle_eq_edge hr t
    exact ⟨_, _, hs, ht, h.left.cycle hs, h.right.cycle ht, h.hostView_edge p⟩

theorem SameView.step {s t : State} (h : SameView s t) :
    ∃ s' t', step s = .next s' ∧ step t = .next t' ∧ SameView s' t' := by
  have htake : SameView (takePort s) (takePort t) := ⟨h.left.takePort, h.right.takePort, congrArg takePort h.view⟩
  have hport : nextPort s = nextPort t := eq_of_hostView_eq nextPort (fun _ => rfl) h.view
  rw [Machine.step, Machine.step, hport]
  exact htake.cycle _

/-- The RKDATA window of a coherent state is a function of KEY, RK_SEL and RK_VALID (spec/10_state.md R28, R30). -/
theorem Coherent.rkWindow_eq {s : State} (h : Coherent s) :
    rkWindow s = if s.rkValid then (rkRead (keySchedule s.key) (s.rkSel.toNat + 1)).setWidth 64 else 0#64 := by
  unfold rkWindow
  split
  case isTrue hv => rw [h.store hv]
  case isFalse => rfl

theorem SameView.readReg_eq {s t : State} (h : SameView s t) (reg : Reg) : readReg s reg = readReg t reg := by
  cases reg with
  | key | cmd => rfl
  | iv => exact eq_of_hostView_eq State.iv (fun _ => rfl) h.view
  | din => exact eq_of_hostView_eq State.din (fun _ => rfl) h.view
  | dout => exact eq_of_hostView_eq State.dout (fun _ => rfl) h.view
  | status => exact eq_of_hostView_eq statusWord (fun _ => rfl) h.view
  | ctrl => exact eq_of_hostView_eq ctrlWord (fun _ => rfl) h.view
  | rkdata =>
    have hkey : s.key = t.key := eq_of_hostView_eq State.key (fun _ => rfl) h.view
    have hsel : s.rkSel = t.rkSel := eq_of_hostView_eq State.rkSel (fun _ => rfl) h.view
    have hvalid : s.rkValid = t.rkValid := eq_of_hostView_eq State.rkValid (fun _ => rfl) h.view
    simp only [readReg, h.left.rkWindow_eq, h.right.rkWindow_eq, hkey, hsel, hvalid]

theorem SameView.portOut_eq {s t : State} (h : SameView s t) (p : PortIn) : portOut p s = portOut p t := by
  have hirq : s.irq = t.irq := eq_of_hostView_eq State.irq (fun _ => rfl) h.view
  rw [portOut, portOut, hirq, portRdata, portRdata, h.readReg_eq]

/-- The bisimulation gives the same outputs in any number of cycles. -/
theorem SameView.observe_eq (n : Nat) {s t : State} (h : SameView s t) : observe n s = observe n t := by
  induction n generalizing s t with
  | zero => rfl
  | succ n ih =>
    obtain ⟨s', t', hs, ht, h'⟩ := h.step
    have hport : nextPort s = nextPort t := eq_of_hostView_eq nextPort (fun _ => rfl) h.view
    simp only [observe, hs, ht, hport, h.portOut_eq, ih h']

/-- Settles O37: coherent states at rest with the same visible registers have one view, and `SameView` is a
bisimulation. -/
theorem hiddenStateIsUnobservable : Obligations.HiddenStateIsUnobservable := by
  intro n s t hs ht hbs hbt hkey hiv hdin hdout hdone hvalid hcmd hbusy hirq hsel hinputs
  have hps := busy_eq_false_iff.mp hbs
  have hpt := busy_eq_false_iff.mp hbt
  refine SameView.observe_eq n ⟨hs, ht, ?_⟩
  simp [hostView, hkey, hiv, hdin, hdout, hdone, hvalid, hcmd, hbusy, hirq, hsel, hinputs, hbs, hbt, hps, hpt,
    hs.at_rest hps, ht.at_rest hpt]

end Sys2Proof.Machine

/-! PROOFS. Masks of the registers: the bits a register defines, read and written (spec/10_state.md R29). -/

namespace Sys2Proof.Machine

/-- A value of `n` bits, zero-extended, has no bit above them. -/
theorem setWidth_and_lowMask {n : Nat} (x : BitVec n) :
    x.setWidth 64 &&& (BitVec.allOnes n).setWidth 64 = x.setWidth 64 := by
  rw [← BitVec.setWidth_and, BitVec.and_allOnes]

theorem statusWord_and_mask (s : State) : statusWord s &&& 0x1F#64 = statusWord s := setWidth_and_lowMask _

/-- The eight bits of a CTRL read have 0 at bits 3:1 (R27). -/
theorem ctrlBits_and_mask (sel : BitVec 4) (en : Bool) :
    (sel ++ 0#3 ++ BitVec.ofBool en) &&& 0xF1#8 = sel ++ 0#3 ++ BitVec.ofBool en := by
  revert sel en; decide

theorem ctrlWord_and_mask (s : State) : ctrlWord s &&& 0xF1#64 = ctrlWord s := by
  have hmask : (0xF1#64) = (0xF1#8).setWidth 64 := rfl
  rw [ctrlWord, hmask, ← BitVec.setWidth_and, ctrlBits_and_mask]

theorem rkWindow_and_mask (s : State) : rkWindow s &&& 0xFFFFFFFFFFFF#64 = rkWindow s := by
  unfold rkWindow
  split
  · exact setWidth_and_lowMask _
  · exact BitVec.zero_and

/-- A mask of the low `n` bits reads those bits alone. -/
theorem setWidth_low_and {n : Nat} (v : Block) (m : BitVec n) :
    (v.setWidth n &&& m).setWidth 64 = v &&& m.setWidth 64 := by
  apply BitVec.eq_of_getLsbD_eq
  intro i hi
  by_cases hn : i < n
  · simp [hi, hn]
  · simp [BitVec.getLsbD_of_ge m i (Nat.le_of_not_lt hn)]

theorem ctrlFields_of_byte (b : BitVec 8) :
    b.extractLsb' 4 4 ++ 0#3 ++ BitVec.ofBool (b.getLsbD 0) = b &&& 0xF1#8 := by
  revert b; decide +kernel

/-- The bits R27 takes of a CTRL write, put back in their places. -/
theorem ctrlFields_of_word (v : Block) :
    (v.extractLsb' 4 4 ++ 0#3 ++ BitVec.ofBool (v.getLsbD 0)).setWidth 64 = v &&& 0xF1#64 := by
  have hsel : v.extractLsb' 4 4 = (v.setWidth 8).extractLsb' 4 4 := by
    ext i hi
    have h8 : 4 + i < 8 := by omega
    simp [h8]
  have hen : v.getLsbD 0 = (v.setWidth 8).getLsbD 0 := by simp
  rw [hsel, hen, ctrlFields_of_byte, setWidth_low_and]
  rfl

theorem getLsbD_eq_of_and_eq {v w m : Block} (h : v &&& m = w &&& m) {i : Nat} (hi : m.getLsbD i = true) :
    v.getLsbD i = w.getLsbD i := by
  simpa [hi] using congrArg (fun x => x.getLsbD i) h

/-- Words that agree on a mask agree on every field inside the mask. -/
theorem extractLsb'_eq_of_and_eq {v w m : Block} (h : v &&& m = w &&& m) (start len : Nat)
    (hm : m.extractLsb' start len = BitVec.allOnes len) : v.extractLsb' start len = w.extractLsb' start len := by
  have hx := congrArg (fun x => x.extractLsb' start len) h
  simpa [BitVec.extractLsb'_and, hm] using hx

theorem clearStatus_congr {v w : Block} (h : v &&& 0x1A#64 = w &&& 0x1A#64) : clearStatus v = clearStatus w := by
  have h1 := getLsbD_eq_of_and_eq (i := 1) h (by decide)
  have h3 := getLsbD_eq_of_and_eq (i := 3) h (by decide)
  have h4 := getLsbD_eq_of_and_eq (i := 4) h (by decide)
  funext t
  simp only [clearStatus, h1, h3, h4]

theorem loadCtrl_congr {v w : Block} (h : v &&& 0xF1#64 = w &&& 0xF1#64) : loadCtrl v = loadCtrl w := by
  have h0 := getLsbD_eq_of_and_eq (i := 0) h (by decide)
  have h4 := extractLsb'_eq_of_and_eq h 4 4 (by decide)
  funext t
  simp only [loadCtrl, h0, h4]

theorem cmdOp_congr {v w : Block} (h : v &&& 0xF#64 = w &&& 0xF#64) : cmdOp v = cmdOp w :=
  extractLsb'_eq_of_and_eq h 0 4 (by decide)

end Sys2Proof.Machine

/-! PROOFS. The obligations on the registers (spec/10_state.md). -/

namespace Sys2Proof.Machine

theorem exec_rd (reg : Reg) (s : State) : exec (.rd reg) s = .next (driveRdata (readReg s reg) (idleCycle s)) := rfl

theorem exec_wr (reg : Reg) (v : Block) (s : State) : exec (.wr reg v) s = .next (writeCycle s (writeReg s reg v)) := rfl

/-- Settles O10: every instruction is a value on bus_rdata and an edge, and every step is such a cycle or a reset edge. -/
theorem everyCycleCompletes : Obligations.EveryCycleCompletes := by
  constructor
  · intro i s
    obtain ⟨_, _, _, he⟩ := exec_cases i s
    exact ⟨_, he⟩
  · intro s
    rcases cycle_cases (nextPort s) (takePort s) with ⟨_, he⟩ | ⟨_, _, _, _, he⟩
    · exact ⟨_, he⟩
    · exact ⟨_, he⟩

/-- Settles O18: a write to DOUT or RKDATA is no write at all. -/
theorem writeOfAReadOnlyRegister : Obligations.WriteOfAReadOnlyRegister := fun _ _ => ⟨rfl, rfl⟩

/-- Settles O16, by the masks of the words read, and since each write is a function of the register's defined bits. -/
theorem reservedBitsReadZeroAndIgnoreWrites : Obligations.ReservedBitsReadZeroAndIgnoreWrites := by
  refine ⟨fun s => ⟨_, exec_rd _ s, statusWord_and_mask s⟩, fun s => ⟨_, exec_rd _ s, ctrlWord_and_mask s⟩,
    fun s => ⟨_, exec_rd _ s, rkWindow_and_mask s⟩, fun s => ⟨_, exec_rd _ s, rfl⟩, ?_, ?_,
    fun s v => (writeOfAReadOnlyRegister s v).2, ?_⟩
  · intro s v w h
    rw [exec_wr, exec_wr, writeReg, writeReg, clearStatus_congr h]
  · intro s v w h
    rw [exec_wr, exec_wr, writeReg, writeReg, loadCtrl_congr h]
  · intro s v w h
    rw [exec_wr, exec_wr, writeReg, writeReg, cmdOp_congr h]

/-- Settles O17: at rest an accepted write is the whole edge. -/
theorem writeOfADataRegister : Obligations.WriteOfADataRegister := by
  intro s v hb
  refine ⟨?_, ?_, ?_⟩
  · rw [exec_wr, writeReg, writeCycle_idle hb]; rfl
  · rw [exec_wr, writeReg, writeCycle_idle hb]; rfl
  · rw [exec_wr, writeReg, writeCycle_idle hb]; rfl

/-- Settles O19: the write applies to the flags the engine's part leaves as they were, and a completion sets DONE after it. -/
theorem statusWriteOneToClear : Obligations.StatusWriteOneToClear := by
  intro s v
  obtain ⟨-, -, hdone, hcmd, hbusy, -⟩ := engineEdge_frame s
  rw [exec_wr, writeReg, writeCycle, ← engineEdge_completes_eq, ← hdone, ← hcmd, ← hbusy, idleCycle, quietCycle,
    edge_eq, edge_eq]
  rfl

/-- Settles O20, from O19's next state. -/
theorem doneSetWins : Obligations.DoneSetWins := by
  intro s v hb hb' _
  exact ⟨_, statusWriteOneToClear s v, hb', by simp [hb, hb']⟩

/-- Settles O21: the engine's part never touches CTRL, and the word read back holds the bits taken. -/
theorem ctrlWrite : Obligations.CtrlWrite := by
  intro s v
  refine ⟨_, exec_wr .ctrl v s, ?_, ?_⟩
  · rw [writeReg, writeCycle, idleCycle, quietCycle, edge_eq, edge_eq]
    rfl
  · rw [writeReg, writeCycle, edge_eq]
    exact ctrlFields_of_word v

/-- Settles O11. -/
theorem resetRecord : Obligations.ResetRecord := by
  refine ⟨rfl, rfl, rfl, rfl, rfl, rfl, rfl, rfl, rfl, rfl, rfl, rfl, rfl, rfl, rfl, rfl, rfl, rfl, rfl, rfl, rfl, ?_⟩
  intro reg
  cases reg <;> rfl

end Sys2Proof.Machine

/-! PROOFS. Who may change a register (R21 to R24, R27, R30): the engine's part of an edge, and the host's write of each
access. -/

namespace Sys2Proof.Machine

/-! The engine writes DOUT and IV in the last round edge only, and the store in phase KS only. -/

theorem isBlockOp_iff_range (op : Opcode) : isBlockOp op = true ↔ 1 ≤ op.toNat ∧ op.toNat ≤ 4 := by
  revert op; decide

theorem ksEdge_dout_iv (s : State) : (ksEdge s).1.dout = s.dout ∧ (ksEdge s).1.iv = s.iv := by
  by_cases hc : s.cnt = 16#5
  · by_cases hop : s.opL = opKeysched
    · rw [ksEdge_completes hc hop]; exact ⟨rfl, rfl⟩
    · rw [ksEdge_toRounds hc hop]; exact ⟨rfl, rfl⟩
  · rw [ksEdge_early hc]; exact ⟨rfl, rfl⟩

theorem engineEdge_dout_iv {s : State} (h : ¬(s.phase = .rnd ∧ s.cnt = 16#5)) :
    (engineEdge s).1.dout = s.dout ∧ (engineEdge s).1.iv = s.iv := by
  cases hp : s.phase with
  | idle => rw [engineEdge_idle hp]; exact ⟨rfl, rfl⟩
  | ks => rw [engineEdge_ks hp]; exact ksEdge_dout_iv s
  | rnd => rw [engineEdge_rnd hp, rndEdge_early fun hc => h ⟨hp, hc⟩]; exact ⟨rfl, rfl⟩

theorem engineEdge_dout_ne {s : State} (h : (engineEdge s).1.dout ≠ s.dout) :
    s.phase = .rnd ∧ s.cnt = 16#5 ∧ isBlockOp s.opL = true := by
  by_cases hlast : s.phase = .rnd ∧ s.cnt = 16#5
  · obtain ⟨hp, hc⟩ := hlast
    refine ⟨hp, hc, ?_⟩
    by_contra hop
    rw [engineEdge_rnd hp, rndEdge_completes hc] at h
    simp [hop] at h
  · exact absurd (engineEdge_dout_iv hlast).1 h

theorem engineEdge_iv_ne {s : State} (h : (engineEdge s).1.iv ≠ s.iv) :
    s.phase = .rnd ∧ s.cnt = 16#5 ∧ (s.opL = opCbcEnc ∨ s.opL = opCbcDec) := by
  by_cases hlast : s.phase = .rnd ∧ s.cnt = 16#5
  · obtain ⟨hp, hc⟩ := hlast
    refine ⟨hp, hc, ?_⟩
    by_contra hop
    obtain ⟨hne, hnd⟩ := not_or.mp hop
    rw [engineEdge_rnd hp, rndEdge_completes hc] at h
    simp [chainNext, hne, hnd] at h
  · exact absurd (engineEdge_dout_iv hlast).2 h

theorem engineEdge_rk_ne {s : State} (h : (engineEdge s).1.rk ≠ s.rk) : s.phase = .ks := by
  cases hp : s.phase with
  | ks => rfl
  | idle => rw [engineEdge_idle hp] at h; exact absurd rfl h
  | rnd =>
    rw [engineEdge_rnd hp] at h
    by_cases hc : s.cnt = 16#5
    · rw [rndEdge_completes hc] at h; simp at h
    · rw [rndEdge_early hc] at h; exact absurd rfl h

/-! The host's writes, tied to their access. -/

/-- The registers of R21 to R24, R27 and R30, all else at its reset value. -/
def registers (t : State) : State :=
  { State.reset with
    key := t.key, iv := t.iv, din := t.din, dout := t.dout, rk := t.rk, irqEn := t.irqEn, rkSel := t.rkSel }

/-- The write of an access in an edge from `s`: an accepted write of its own register, or one that leaves every
register alone. -/
inductive RegisterWrite (s : State) (access : Option Instr) : (State → State) → Prop
  | keeps {write : State → State} : (∀ t, registers (write t) = registers t) → RegisterWrite s access write
  | key (v : Block) : s.busy = false → access = some (.wr .key v) → RegisterWrite s access (loadKey v)
  | iv (v : Block) : s.busy = false → access = some (.wr .iv v) → RegisterWrite s access (loadIv v)
  | din (v : Block) : s.busy = false → access = some (.wr .din v) → RegisterWrite s access (loadDin v)
  | ctrl (v : Block) : access = some (.wr .ctrl v) → RegisterWrite s access (loadCtrl v)

theorem registerWrite_unlessBusy {s : State} {access : Option Instr} {write : State → State}
    (h : s.busy = false → RegisterWrite s access write) : RegisterWrite s access (unlessBusy s write) := by
  cases hb : s.busy with
  | true =>
    have hdrop : unlessBusy s write = raiseErrBusy := by funext t; simp [unlessBusy, hb]
    rw [hdrop]
    exact .keeps fun _ => rfl
  | false =>
    have htake : unlessBusy s write = write := by funext t; simp [unlessBusy, hb]
    rw [htake]
    exact h hb

theorem registers_accept (s : State) (op : Opcode) (t : State) : registers (accept s op t) = registers t := by
  unfold accept
  split <;> rfl

theorem registers_cmdWrite (s : State) (op : Opcode) (t : State) : registers (cmdWrite s op t) = registers t := by
  unfold cmdWrite
  split
  · rfl
  split
  · exact registers_accept s op t
  · rfl

theorem registerWrite_writeReg (s : State) (reg : Reg) (v : Block) :
    RegisterWrite s (some (.wr reg v)) (writeReg s reg v) := by
  cases reg with
  | key => exact registerWrite_unlessBusy fun hb => .key v hb rfl
  | iv => exact registerWrite_unlessBusy fun hb => .iv v hb rfl
  | din => exact registerWrite_unlessBusy fun hb => .din v hb rfl
  | cmd => exact registerWrite_unlessBusy fun _ => .keeps (registers_cmdWrite s _)
  | ctrl => exact .ctrl v rfl
  | dout | status | rkdata => exact .keeps fun _ => rfl

/-- `edgeWith_cases` with the write tied to the access it comes of. -/
theorem edgeWith_registerWrite (access : Option Instr) (s : State) :
    ∃ rdata write, RegisterWrite s access write ∧
      edgeWith access s = .next (driveRdata rdata (edge s write)) := by
  have command (i : Instr) (op : Opcode) : RegisterWrite s (some i) (unlessBusy s (accept s op)) :=
    registerWrite_unlessBusy fun _ => .keeps (registers_accept s op)
  have reserved (i : Instr) : RegisterWrite s (some i) (unlessBusy s raiseErrCmd) :=
    registerWrite_unlessBusy fun _ => .keeps fun _ => rfl
  match access with
  | none => exact ⟨0#64, id, .keeps fun _ => rfl, rfl⟩
  | some (.rd reg) => exact ⟨readReg s reg, id, .keeps fun _ => rfl, rfl⟩
  | some (.wr reg v) => exact ⟨0#64, _, registerWrite_writeReg s reg v, rfl⟩
  | some (.nop _) => exact ⟨0#64, _, registerWrite_unlessBusy fun _ => .keeps fun _ => rfl, rfl⟩
  | some (.ecbEnc _) => exact ⟨0#64, _, command _ _, rfl⟩
  | some (.ecbDec _) => exact ⟨0#64, _, command _ _, rfl⟩
  | some (.cbcEnc _) => exact ⟨0#64, _, command _ _, rfl⟩
  | some (.cbcDec _) => exact ⟨0#64, _, command _ _, rfl⟩
  | some (.keysched _) => exact ⟨0#64, _, command _ _, rfl⟩
  | some (.reservedLow _ _) => exact ⟨0#64, _, reserved _, rfl⟩
  | some (.reservedHigh _ _) => exact ⟨0#64, _, reserved _, rfl⟩

section Causes

variable {s : State} {access : Option Instr} {write : State → State}

theorem RegisterWrite.key_ne (hw : RegisterWrite s access write) {t : State} (h : (write t).key ≠ t.key) :
    s.busy = false ∧ ∃ v, access = some (.wr .key v) := by
  cases hw with
  | key v hb ha => exact ⟨hb, v, ha⟩
  | keeps hk => exact absurd (congrArg State.key (hk t)) h
  | iv | din | ctrl => exact absurd rfl h

theorem RegisterWrite.din_ne (hw : RegisterWrite s access write) {t : State} (h : (write t).din ≠ t.din) :
    s.busy = false ∧ ∃ v, access = some (.wr .din v) := by
  cases hw with
  | din v hb ha => exact ⟨hb, v, ha⟩
  | keeps hk => exact absurd (congrArg State.din (hk t)) h
  | key | iv | ctrl => exact absurd rfl h

theorem RegisterWrite.iv_ne (hw : RegisterWrite s access write) {t : State} (h : (write t).iv ≠ t.iv) :
    s.busy = false ∧ ∃ v, access = some (.wr .iv v) := by
  cases hw with
  | iv v hb ha => exact ⟨hb, v, ha⟩
  | keeps hk => exact absurd (congrArg State.iv (hk t)) h
  | key | din | ctrl => exact absurd rfl h

theorem RegisterWrite.ctrl_ne (hw : RegisterWrite s access write) {t : State}
    (h : (write t).irqEn ≠ t.irqEn ∨ (write t).rkSel ≠ t.rkSel) : ∃ v, access = some (.wr .ctrl v) := by
  cases hw with
  | ctrl v ha => exact ⟨v, ha⟩
  | keeps hk =>
    rcases h with h | h
    · exact absurd (congrArg State.irqEn (hk t)) h
    · exact absurd (congrArg State.rkSel (hk t)) h
  | key | iv | din => exact absurd h (by simp)

theorem RegisterWrite.dout_eq (hw : RegisterWrite s access write) (t : State) : (write t).dout = t.dout := by
  cases hw with
  | keeps hk => exact (congrArg State.dout (hk t) :)
  | key | iv | din | ctrl => rfl

theorem RegisterWrite.rk_eq (hw : RegisterWrite s access write) (t : State) : (write t).rk = t.rk := by
  cases hw with
  | keeps hk => exact (congrArg State.rk (hk t) :)
  | key | iv | din | ctrl => rfl

end Causes

/-- Settles O31: a register that differs after the edge was changed by the host's write over the engine's part, or by the
engine's part. -/
theorem registersChangeOnlyByTheirCauses : Obligations.RegistersChangeOnlyByTheirCauses := by
  intro access s
  obtain ⟨rdata, write, hw, he⟩ := edgeWith_registerWrite access s
  obtain ⟨hkey, hdin, -, -, -, hirq, hsel, -⟩ := engineEdge_frame s
  refine ⟨_, he, ?_⟩
  rw [edge_eq]
  refine ⟨fun h => hw.key_ne (hkey.symm ▸ h), fun h => hw.din_ne (hdin.symm ▸ h), ?_, ?_, ?_, ?_⟩
  · intro h
    by_cases hiv : (engineEdge s).1.iv = s.iv
    · exact .inl (hw.iv_ne (hiv.symm ▸ h))
    · exact .inr (engineEdge_iv_ne hiv)
  · intro h
    obtain ⟨hp, hc, hop⟩ := engineEdge_dout_ne fun e => h ((hw.dout_eq _).trans e)
    exact ⟨hp, hc, (isBlockOp_iff_range _).mp hop⟩
  · intro h
    exact engineEdge_rk_ne fun e => h ((hw.rk_eq _).trans e)
  · intro h
    exact hw.ctrl_ne (hirq.symm ▸ hsel.symm ▸ h)

end Sys2Proof.Machine

/-! PROOFS. The host's side of the port: the bytes of a packed block (spec/20_memory.md R64) and the accesses an adapter
lets through (R65). -/

namespace Sys2Proof.Machine

/-- R64: a read from bit 56 - 8j passes over the bytes after byte j, which lie below it, and of what is left takes the last
byte (byte 0 is all that is left of the block). -/
theorem extractLsb'_packBlock (bytes : Vector (BitVec 8) 8) (j : Nat) (h : j < 8) :
    (packBlock bytes).extractLsb' (56 - 8 * j) 8 = bytes[j] := by
  unfold packBlock
  interval_cases j <;>
    simp (disch := decide) only [Nat.reduceMul, Nat.reduceSub, BitVec.extractLsb'_append_eq_of_le,
      BitVec.extractLsb'_append_eq_right, BitVec.extractLsb'_eq_self]

/-- R65: the adapter lets through the eight-byte accesses at eight times a register's index, and no other. -/
theorem adapterReg_eq_some_iff {offset width : Nat} {reg : Reg} :
    adapterReg offset width = some reg ↔ width = 8 ∧ offset = 8 * reg.idx.toNat := by
  unfold adapterReg
  constructor
  · intro h
    obtain ⟨⟨hw, hmod, hlt⟩, hreg⟩ := Option.ite_none_right_eq_some.mp h
    obtain rfl := Option.some.inj hreg
    refine ⟨hw, ?_⟩
    rw [Reg.idx_ofIdx, BitVec.toNat_ofNat]
    omega
  · rintro ⟨rfl, rfl⟩
    have hlt := reg.idx.isLt
    rw [if_pos (by omega), Nat.mul_div_cancel_left _ (by decide), BitVec.ofNat_toNat, BitVec.setWidth_eq,
      Reg.ofIdx_idx]

/-- Settles O54, from the bytes of a packed block and the accesses the adapter lets through. -/
theorem hostPackingAndAdapter : Obligations.HostPackingAndAdapter := by
  refine ⟨extractLsb'_packBlock, fun reg => adapterReg_eq_some_iff.mpr ⟨rfl, rfl⟩, ?_⟩
  intro offset width h
  obtain ⟨reg, hreg⟩ := Option.ne_none_iff_exists'.mp h
  obtain ⟨hw, rfl⟩ := adapterReg_eq_some_iff.mp hreg
  have hlt := reg.idx.isLt
  exact ⟨hw, by omega, by omega⟩

end Sys2Proof.Machine

/-! PROOFS. Commands as a class of instructions: their words, and that the decoder and the encoder agree on them
(spec/30_encoding.md R91, R95, R96). -/

namespace Sys2Proof

/-- The instructions of the CMD format (R90). -/
def Instr.isCommand : Instr → Bool
  | .rd _ => false
  | .wr _ _ => false
  | _ => true

theorem encode_of_isCommand {i : Instr} (h : i.isCommand = true) : encode i = txWord 1#1 Reg.cmd.idx i.data := by
  cases i
  case rd | wr => cases h
  all_goals rfl

theorem wellFormed_of_isCommand {i : Instr} (h : i.isCommand = true) : i.wellFormed = true := by
  cases i
  case rd | wr => cases h
  all_goals rfl

theorem decodeCmd_reservedLow (op0 : BitVec 1) (ign : Ignored) :
    decodeCmd (cmdWord (0b011#3 ++ op0) ign) = .reservedLow op0 ign := by
  have hop : op0 = 0#1 ∨ op0 = 1#1 := by revert op0; decide
  rcases hop with rfl | rfl
  · simp [decodeCmd]
  · simp [decodeCmd]

theorem toNat_reservedHigh (op20 : BitVec 3) : (0b1#1 ++ op20).toNat = 8 + op20.toNat := by
  revert op20; decide

theorem decodeCmd_reservedHigh (op20 : BitVec 3) (ign : Ignored) :
    decodeCmd (cmdWord (0b1#1 ++ op20) ign) = .reservedHigh op20 ign := by
  have hfield : (0b1#1 ++ op20).extractLsb' 0 3 = op20 := by revert op20; decide
  have hlt := toNat_reservedHigh op20
  unfold decodeCmd
  rw [cmdOp_cmdWord, cmdIgnored_cmdWord, hfield]
  split
  case h_9 => rfl
  all_goals omega

/-- The command decoder inverts the spelling of each command. -/
theorem decodeCmd_data {i : Instr} (h : i.isCommand = true) : decodeCmd i.data = i := by
  cases i with
  | rd | wr => cases h
  | reservedLow op0 ign => exact decodeCmd_reservedLow op0 ign
  | reservedHigh op20 ign => exact decodeCmd_reservedHigh op20 ign
  | _ => simp [Instr.data, decodeCmd, opNop, opEcbEnc, opEcbDec, opCbcEnc, opCbcDec, opKeysched]

/-- Every command word is the spelling of a command (R96, R97: no opcode is without a row). -/
theorem exists_command_of_word (w : Block) : ∃ i : Instr, i.isCommand = true ∧ i.data = w := by
  rw [← cmdWord_fields w]
  rcases op_cases (cmdOp w) with h | h | h | h | h | h | ⟨low, h⟩ | ⟨low, h⟩ <;> rw [h]
  · exact ⟨.nop _, rfl, rfl⟩
  · exact ⟨.ecbEnc _, rfl, rfl⟩
  · exact ⟨.ecbDec _, rfl, rfl⟩
  · exact ⟨.cbcEnc _, rfl, rfl⟩
  · exact ⟨.cbcDec _, rfl, rfl⟩
  · exact ⟨.keysched _, rfl, rfl⟩
  · exact ⟨.reservedLow low _, rfl, rfl⟩
  · exact ⟨.reservedHigh low _, rfl, rfl⟩

theorem isCommand_decodeCmd (w : Block) : (decodeCmd w).isCommand = true := by
  obtain ⟨i, hi, rfl⟩ := exists_command_of_word w
  rw [decodeCmd_data hi, hi]

/-- The spelling of the command a word selects is the word, its ignored bits included. -/
theorem data_decodeCmd (w : Block) : (decodeCmd w).data = w := by
  obtain ⟨i, hi, rfl⟩ := exists_command_of_word w
  rw [decodeCmd_data hi]

/-- The decoder inverts the encoder (R91, R92). -/
theorem decode_encode {i : Instr} (hi : i.wellFormed = true) : decode (encode i) = .ok i := by
  cases hc : i.isCommand with
  | true => rw [encode_of_isCommand hc, decode_write, if_pos (Reg.ofIdx_idx _), decodeCmd_data hc]
  | false =>
    cases i
    case rd r => simp [encode, Instr.data, decode_read]
    case wr r v =>
      have hr : r ≠ .cmd := by simpa [Instr.wellFormed] using hi
      rw [encode, decode_write, Reg.ofIdx_idx, if_neg hr]
    all_goals cases hc

/-- Settles O1. -/
theorem decodeOfEncode : Obligations.DecodeOfEncode := fun _ hi => decode_encode hi

/-- A write word decodes to the well-formed instruction it is the encoding of. -/
theorem encode_of_write (idx : BitVec 3) (v : Block) {i : Instr} (h : decode (txWord 1#1 idx v) = .ok i) :
    i.wellFormed = true ∧ encode i = txWord 1#1 idx v := by
  rw [decode_write] at h
  obtain rfl := Except.ok.inj h
  split
  case isTrue hr =>
    have hidx : Reg.cmd.idx = idx := by rw [← hr, Reg.idx_ofIdx]
    have hc := isCommand_decodeCmd v
    exact ⟨wellFormed_of_isCommand hc, by rw [encode_of_isCommand hc, data_decodeCmd, hidx]⟩
  case isFalse hr => exact ⟨by simpa [Instr.wellFormed] using hr, by rw [encode, Reg.idx_ofIdx]⟩

/-- The decoder refuses the reads with DATA not 0 (R91, R97). -/
theorem decode_eq_error_iff (w : TxWord) :
    decode w = .error .readWithData ↔ txWe w = false ∧ txData w ≠ 0#64 := by
  cases hw : txWe w with
  | true =>
    simp only [decode, hw, if_true]
    split <;> simp
  | false =>
    by_cases hd : txData w = 0#64
    · simp [decode, hw, hd]
    · simp [decode, hw, hd]

/-- Settles O2: a read word has DATA 0, and a write word is the encoding of the write or of the command it presents. -/
theorem encodeOfDecode : Obligations.EncodeOfDecode := by
  intro w i h
  have hfields := txWord_fields w
  cases hw : txWe w with
  | true =>
    rw [hw] at hfields
    rw [← hfields] at h ⊢
    exact encode_of_write _ _ h
  | false =>
    have hd : txData w = 0#64 := by
      by_contra hd
      rw [(decode_eq_error_iff w).mpr ⟨hw, hd⟩] at h
      cases h
    rw [hw, hd] at hfields
    rw [← hfields] at h ⊢
    obtain rfl := Except.ok.inj ((decode_read _).symm.trans h)
    exact ⟨rfl, by rw [encode, Reg.idx_ofIdx]; rfl⟩

/-- Settles O3: DATA is the word modulo 2^64. -/
theorem onlyReadsWithDataAreRefused : Obligations.OnlyReadsWithDataAreRefused := by
  intro w
  have hdata : (txData w).toNat = w.toNat % 2 ^ 64 := by simp [txData, BitVec.extractLsb'_toNat]
  have hzero : (txData w).toNat ≠ 0 ↔ txData w ≠ 0#64 := BitVec.toNat_ne_iff_ne (y := 0#64)
  rw [decode_eq_error_iff, ← hdata, hzero, txWe]

theorem decode_of_encode_eq {w : TxWord} {i : Instr} (hi : i.wellFormed = true) (hw : encode i = w) :
    decode w = .ok i :=
  hw ▸ decode_encode hi

/-- Settles O4: each word is the encoding of its line. -/
theorem specWordsDecode : Obligations.SpecWordsDecode :=
  ⟨decode_of_encode_eq rfl (by decide), decode_of_encode_eq rfl (by decide), decode_of_encode_eq rfl (by decide),
    decode_of_encode_eq rfl (by decide), decode_of_encode_eq rfl (by decide), decode_of_encode_eq rfl (by decide),
    decode_of_encode_eq rfl (by decide), decode_of_encode_eq rfl (by decide)⟩

end Sys2Proof

/-! PROOFS. The opcode table's rows: which of them a word belongs to is a matter of OP, or of WE (R91, R96). -/

namespace Sys2Proof

open Laws.EncodesRow (cmdWord_and txWord_and)

theorem cmdRow_holds_iff_op {row : TableRow} (hrow : row ∈ cmdRows) (w : Block) :
    row.holds w.toNat = row.holds (cmdOp w).toNat := by
  have hmask : ∀ row ∈ cmdRows, row.mask < 16 := by decide
  have hand := cmdWord_and (cmdOp w) (cmdIgnored w) (hmask row hrow)
  rw [cmdWord_fields] at hand
  rw [TableRow.holds, TableRow.holds, hand]

theorem one_cmdRow_of_op (op : Opcode) : (cmdRows.filter fun row => row.holds op.toNat).length = 1 := by
  revert op; decide

/-- Settles O5: a CMD row sees OP alone, and a BUS row sees WE alone. -/
theorem everyWordHasOneTableRow : Obligations.EveryWordHasOneTableRow := by
  constructor
  · intro w
    rw [List.filter_congr fun row hrow => cmdRow_holds_iff_op hrow w]
    exact one_cmdRow_of_op (cmdOp w)
  · intro w
    rw [← txWord_fields w]
    cases txWe w <;> simp [busRows, TableRow.holds, txWord_and]

end Sys2Proof

/-! PROOFS. What a command word does (R90, R95, spec/44_commands.md R211, R213). -/

namespace Sys2Proof.Machine

/-- Settles O7. -/
theorem writeToCmdIsTheCommand : Obligations.WriteToCmdIsTheCommand := fun w s => (exec_decodeCmd w s).symm

/-- Settles O6: a write to CMD uses OP alone, and the command it presents has the same effect. -/
theorem commandDependsOnLowFourBits : Obligations.CommandDependsOnLowFourBits := by
  intro v w s h
  have hwr : exec (.wr .cmd v) s = exec (.wr .cmd w) s := by
    rw [exec_wr, exec_wr, writeReg, writeReg, cmdOp_congr h]
  exact ⟨hwr, by rw [exec_decodeCmd, exec_decodeCmd, hwr]⟩

end Sys2Proof.Machine

/-! PROOFS. The host's lines at the port (R99, R100): one access is one cycle, and CLRST and SELRK are such lines. -/

namespace Sys2Proof.Machine

/-- An access played at the port is exec of its instruction. -/
theorem cycle_access {i : Instr} (hi : i.wellFormed = true) (s : State) : cycle (PortIn.access i) s = exec i s := by
  have hdec : decode (PortIn.access i).txWord = .ok i := by
    rw [PortIn.access, portWord_ofTxWord (decode_encode hi), decode_encode hi]
  rw [cycle, hdec]
  rfl

theorem next?_access {i : Instr} (hi : i.wellFormed = true) {s t : State} (h : exec i s = .next t) :
    next? (PortIn.access i) s = some t := by
  rw [next?, cycle_access hi, h]

/-- A line that expands to one write returns no read. -/
theorem runHostProgram_write {line : HostLine} {r : Reg} {v : Block} (hline : line.expand = [.access (.wr r v)])
    (hr : r ≠ .cmd) {s t : State} (h : exec (.wr r v) s = .next t) : runHostProgram [line] s = some (t, []) := by
  have hwf : (Instr.wr r v).wellFormed = true := by simpa [Instr.wellFormed] using hr
  simp [runHostProgram, hline, runHostSteps, HostStep.run, next?_access hwf h]

/-- The CTRL word SELRK writes (R100): 16(r-1) + e. -/
theorem selrkWord_eq (sel : BitVec 4) (e : Bool) :
    (sel ++ 0#3 ++ BitVec.ofBool e).setWidth 64 = BitVec.ofNat 64 (16 * sel.toNat + e.toNat) := by
  revert sel e; decide

theorem selrkWord_fields (sel : BitVec 4) (e : Bool) :
    ((sel ++ 0#3 ++ BitVec.ofBool e).setWidth 64).getLsbD 0 = e ∧
    ((sel ++ 0#3 ++ BitVec.ofBool e).setWidth 64).extractLsb' 4 4 = sel := by
  revert sel e; decide

/-- Settles O55, by the rules of a STATUS and of a CTRL write (O19, O21). -/
theorem clrstAndSelrk : Obligations.ClrstAndSelrk := by
  refine ⟨rfl, ?_, ?_, ?_⟩
  · intro sel e
    rw [HostLine.expand, selrkWord_eq]
  · intro s
    have h := statusWriteOneToClear s 0x1A#64
    rw [runHostProgram_write rfl (by decide) h]
    simp
  · intro s sel e
    obtain ⟨t, hexec, rfl, -⟩ := ctrlWrite s ((sel ++ 0#3 ++ BitVec.ofBool e).setWidth 64)
    obtain ⟨hen, hsel⟩ := selrkWord_fields sel e
    rw [runHostProgram_write rfl (by decide) hexec, hen, hsel]

end Sys2Proof.Machine

/-! PROOFS. The edges a command in flight has still to run, and what POLL reads of them (R100, spec/70_reset_and_hazards.md R290). -/

namespace Sys2Proof.Machine

/-- The edges until BUSY = 0: those of the phase the command is in, and its rounds if it is still in phase KS. -/
def edgesLeft (s : State) : Nat :=
  match s.phase with
  | .idle => 0
  | .ks => 17 - s.cnt.toNat + rndEdges s.opL
  | .rnd => 17 - s.cnt.toNat

theorem edgesLeft_congr {s t : State} (hp : t.phase = s.phase) (hc : t.cnt = s.cnt) (ho : t.opL = s.opL) :
    edgesLeft t = edgesLeft s := by
  rw [edgesLeft, edgesLeft, hp, hc, ho]

theorem edgesLeft_idle {s : State} (hp : s.phase = .idle) : edgesLeft s = 0 := by simp [edgesLeft, hp]
theorem edgesLeft_ks {s : State} (hp : s.phase = .ks) : edgesLeft s = 17 - s.cnt.toNat + rndEdges s.opL := by
  simp [edgesLeft, hp]
theorem edgesLeft_rnd {s : State} (hp : s.phase = .rnd) : edgesLeft s = 17 - s.cnt.toNat := by simp [edgesLeft, hp]

theorem edgesLeft_eq_zero_iff {s : State} (h : Coherent s) : edgesLeft s = 0 ↔ s.busy = false := by
  rw [busy_eq_false_iff]
  cases hp : s.phase with
  | idle => simp [edgesLeft_idle hp]
  | ks =>
    have hle := (h.deriving_keys hp).inFlight.cnt_le
    have hpos : edgesLeft s ≠ 0 := by rw [edgesLeft_ks hp]; omega
    simp [hpos]
  | rnd =>
    have hle := (h.running_rounds hp).inFlight.cnt_le
    have hpos : edgesLeft s ≠ 0 := by rw [edgesLeft_rnd hp]; omega
    simp [hpos]

/-- The engine's part of a busy edge is one edge of the command. -/
theorem edgesLeft_engineEdge {s : State} (h : Coherent s) (hb : s.busy = true) :
    edgesLeft (engineEdge s).1 + 1 = edgesLeft s := by
  have hsucc := (h.inFlight hb).toNat_cnt_succ
  have hle := (h.inFlight hb).cnt_succ_le
  rcases busy_eq_true_iff.mp hb with hp | hp
  · rw [engineEdge_ks hp, edgesLeft_ks hp]
    by_cases hc : s.cnt = 16#5
    · by_cases hop : s.opL = opKeysched
      · rw [ksEdge_completes hc hop, edgesLeft_idle rfl, hc, hop]; rfl
      · have hblock := isBlockOp_of_isCommandOp (h.deriving_keys hp).op_legal hop
        rw [ksEdge_toRounds hc hop, edgesLeft_rnd rfl, hc, rndEdges, if_pos hblock]; rfl
    · rw [ksEdge_early hc, edgesLeft_ks (by exact hp)]
      simp only [hsucc]
      have := hle hc
      omega
  · rw [engineEdge_rnd hp, edgesLeft_rnd hp]
    by_cases hc : s.cnt = 16#5
    · rw [rndEdge_completes hc, edgesLeft_idle rfl, hc]; rfl
    · rw [rndEdge_early hc, edgesLeft_rnd (by exact hp)]
      simp only [hsucc]
      have := hle hc
      omega

/-- No write of the host speeds up or delays a command in flight (R211, spec/60_exceptions.md R251). -/
theorem HostWrite.edgesLeft_of_busy {s : State} {write : State → State} (hw : HostWrite s write) (hb : s.busy = true)
    (t : State) : edgesLeft (write t) = edgesLeft t := by
  cases hw
  case none | status | ctrl | dropped => rfl
  case key h | iv h | din h | reserved h => exact absurd (hb.symm.trans h) (by decide)
  case command h _ _ => exact absurd (hb.symm.trans h) (by decide)

/-- Every busy edge with rst = 0 is one edge of the command, whatever the host's access. -/
theorem edgesLeft_edge {s : State} (h : Coherent s) (hb : s.busy = true) {write : State → State}
    (hw : HostWrite s write) : edgesLeft (edge s write) + 1 = edgesLeft s := by
  have hedge : edgesLeft (edge s write) = edgesLeft (write (engineEdge s).1) := by
    rw [edge_eq]; exact edgesLeft_congr rfl rfl rfl
  rw [hedge, hw.edgesLeft_of_busy hb, edgesLeft_engineEdge h hb]

/-- Acceptance leaves the N edges of R290 to run. -/
theorem edgesLeft_accept (s : State) {op : Opcode} (h0 : op ≠ opNop) (h5 : op.toNat ≤ 5) :
    edgesLeft (accept s op s) = latency op s.rkValid := by
  have hcmd := isCommandOp_of_legal h0 h5
  unfold accept
  split
  case isTrue h =>
    have hks : ksEdges op s.rkValid = 16 := by
      by_cases hop : op = opKeysched
      · simp [ksEdges, hop, Config.latKs]
      · simp [ksEdges, hop, isBlockOp_of_isCommandOp hcmd hop, h.resolve_left hop, Config.latKs]
    rw [edgesLeft_ks rfl, latency, hks]
    rfl
  case isFalse h =>
    obtain ⟨hop, hv⟩ : op ≠ opKeysched ∧ s.rkValid = true := by simpa using h
    rw [edgesLeft_rnd rfl, latency, rndEdges, if_pos (isBlockOp_of_isCommandOp hcmd hop), ksEdges, if_neg hop, hv]
    simp [Config.latRnd]

/-! The CMD lines by name. -/

/-- The opcode a name stands for (R96). -/
def CmdName.opcode : CmdName → Opcode
  | .nop => opNop
  | .ecbEnc => opEcbEnc
  | .ecbDec => opEcbDec
  | .cbcEnc => opCbcEnc
  | .cbcDec => opCbcDec
  | .keysched => opKeysched

/-- At rest a CMD line but NOP is the acceptance of its opcode (R213, R214). -/
theorem exec_cmdName {s : State} (hb : s.busy = false) {op : CmdName} (hop : op ≠ .nop) :
    exec op.instr s = .next (driveRdata 0#64 (accept s op.opcode s)) := by
  have hexec : exec op.instr s = .next (writeCycle s (unlessBusy s (accept s op.opcode))) := by
    cases op with
    | nop => exact absurd rfl hop
    | _ => rfl
  rw [hexec, writeCycle_idle hb]

theorem CmdName.opcode_legal {op : CmdName} (hop : op ≠ .nop) : op.opcode ≠ opNop ∧ op.opcode.toNat ≤ 5 := by
  cases op with
  | nop => exact absurd rfl hop
  | _ => decide

/-- R290's table for the CMD lines. -/
theorem latency_cmdName {op : CmdName} (hop : op ≠ .nop) (rkValid : Bool) :
    latency op.opcode rkValid = if op = .keysched ∨ rkValid = true then 16 else 32 := by
  cases op with
  | nop => exact absurd rfl hop
  | _ => revert rkValid; decide

/-! POLL (R100): each read is a cycle, and bit 0 of the value read is BUSY (spec/10_state.md R26). -/

@[simp] theorem statusWord_bit0 (s : State) : (statusWord s)[0] = s.busy := by
  rw [statusWord, BitVec.getElem_setWidth, BitVec.getLsbD_append]
  simp

theorem next?_readStatus (s : State) :
    next? (PortIn.access (.rd .status)) s = some (quietCycle s (statusWord s)) :=
  next?_access rfl rfl

theorem pollStatus_of_rest {s : State} (hb : s.busy = false) (fuel : Nat) :
    pollStatus (fuel + 1) s = some (quietCycle s (statusWord s), [statusWord s]) := by
  have hr : (quietCycle s (statusWord s)).busRdata = statusWord s := rfl
  simp [pollStatus, next?_readStatus, hr, hb]

theorem pollStatus_of_busy {s t : State} (hb : s.busy = true) {fuel : Nat} {reads : List Block}
    (h : pollStatus fuel (quietCycle s (statusWord s)) = some (t, reads)) :
    pollStatus (fuel + 1) s = some (t, statusWord s :: reads) := by
  have hr : (quietCycle s (statusWord s)).busRdata = statusWord s := rfl
  simp [pollStatus, next?_readStatus, hr, hb, h]

/-- With fuel for them, POLL reads BUSY = 1 once for each edge left, and then BUSY = 0. -/
theorem pollStatus_edgesLeft (n : Nat) {s : State} (h : Coherent s) (hn : edgesLeft s = n) {fuel : Nat}
    (hfuel : n < fuel) :
    ∃ t reads last, pollStatus fuel s = some (t, reads ++ [last]) ∧ reads.length = n ∧
      (∀ v ∈ reads, v.getLsbD 0 = true) ∧ last.getLsbD 0 = false ∧ t.busy = false := by
  obtain ⟨fuel, rfl⟩ := Nat.exists_eq_add_one_of_ne_zero (Nat.ne_zero_of_lt hfuel)
  induction n generalizing s fuel with
  | zero =>
    have hb := (edgesLeft_eq_zero_iff h).mp hn
    refine ⟨_, [], statusWord s, pollStatus_of_rest hb fuel, rfl, by simp, by simpa using hb, ?_⟩
    rw [quietCycle, edge_idle hb]
    exact hb
  | succ n ih =>
    have hb : s.busy = true := by
      by_contra hb
      have := (edgesLeft_eq_zero_iff h).mpr (by simpa using hb)
      omega
    have hnext : edgesLeft (quietCycle s (statusWord s)) = n :=
      Nat.succ.inj ((edgesLeft_edge h hb .none).trans hn)
    obtain ⟨fuel, rfl⟩ : ∃ k, fuel = k + 1 := ⟨fuel - 1, by omega⟩
    obtain ⟨t, reads, last, hpoll, hlen, hreads, hlast, ht⟩ :=
      ih ((h.edge .none).driveRdata _) hnext fuel (by omega)
    refine ⟨t, statusWord s :: reads, last, pollStatus_of_busy hb hpoll, by simp [hlen], ?_, hlast, ht⟩
    simpa [hb] using hreads

/-- Settles O35: acceptance leaves N edges to run, and POLL reads BUSY = 1 once for each. -/
theorem pollReadsBusyLatencyTimes : Obligations.PollReadsBusyLatencyTimes := by
  intro s op h hb hop
  obtain ⟨h0, h5⟩ := CmdName.opcode_legal hop
  have hleft : edgesLeft (driveRdata 0#64 (accept s op.opcode s)) = latency op.opcode s.rkValid :=
    edgesLeft_accept s h0 h5
  have hfuel : latency op.opcode s.rkValid < pollFuel := Nat.lt_of_le_of_lt (latency_le _ _) (by decide)
  obtain ⟨t, reads, last, hpoll, hlen, hrest⟩ :=
    pollStatus_edgesLeft _ ((h.accept h0 h5).driveRdata 0#64) hleft hfuel
  exact ⟨_, t, reads, last, exec_cmdName hb hop, hpoll, hlen.trans (latency_cmdName hop _), hrest⟩

end Sys2Proof.Machine

/-! PROOFS. Permute through one table and then another is Permute through one table, so a permutation and its inverse cancel
(spec/00_scope.md R10, spec/40_tables.md R122, R138). -/

namespace Sys2Proof.Machine

/-- The table of Permute through `first` and then through `second`: entry j is the entry of `first` that entry j of
`second` names. -/
def chainTable (first second : List Nat) : List Nat := second.map fun t => first.getD (t - 1) 0

/-- The table that names every bit of an n-bit value in its own place. -/
def identityTable (n : Nat) : List Nat := List.range' 1 n

/-- DES bit i of Permute(T, v, n) is DES bit T[i] of v (R9, R10). -/
theorem desBit_permute {n m : Nat} {table : List Nat} (hm : table.length = m) (v : BitVec n) {i : Nat}
    (h1 : 1 ≤ i) (h2 : i ≤ m) : desBit (permute m table v) i = desBit v (table.getD (i - 1) 0) := by
  have hplace : m - 1 - (m - i) = i - 1 := by omega
  rw [desBit, permute_getLsbD table hm, dif_pos (by omega), List.getD_eq_getElem _ _ (by omega)]
  simp only [hplace]

/-- A value is known by its DES bits (R9). -/
theorem eq_of_desBit_eq {n : Nat} {v w : BitVec n} (h : ∀ i, 1 ≤ i → i ≤ n → desBit v i = desBit w i) : v = w := by
  apply BitVec.eq_of_getLsbD_eq
  intro i hi
  have hbit := h (n - i) (by omega) (by omega)
  rwa [desBit, desBit, Nat.sub_sub_self (by omega)] at hbit

theorem permute_permute {n m k : Nat} {first second : List Nat} (hm : first.length = m) (hk : second.length = k)
    (hin : ∀ t ∈ second, 1 ≤ t ∧ t ≤ m) (v : BitVec n) :
    permute k second (permute m first v) = permute k (chainTable first second) v := by
  apply eq_of_desBit_eq
  intro i h1 h2
  have hi : i - 1 < second.length := by omega
  obtain ⟨ht1, ht2⟩ := hin second[i - 1] (List.getElem_mem hi)
  rw [desBit_permute hk _ h1 h2, desBit_permute (by simp [chainTable, hk]) _ h1 h2, List.getD_eq_getElem _ _ hi,
    desBit_permute hm v ht1 ht2]
  simp [chainTable, hi]

@[simp] theorem permute_identityTable {n : Nat} (v : BitVec n) : permute n (identityTable n) v = v := by
  apply eq_of_desBit_eq
  intro i h1 h2
  rw [desBit_permute (by simp [identityTable]) v h1 h2]
  have hi : i - 1 < n := by omega
  simp [identityTable, hi, Nat.add_sub_cancel' h1]

@[simp] theorem ipTable_length : ipTable.length = 64 := rfl

@[simp] theorem fpTable_length : fpTable.length = 64 := rfl

theorem chainTable_ip_fp : chainTable ipTable fpTable = identityTable 64 := by decide

theorem chainTable_fp_ip : chainTable fpTable ipTable = identityTable 64 := by decide

@[simp] theorem fp_ip (x : Block) : fp (ip x) = x := by
  rw [fp, ip, permute_permute ipTable_length fpTable_length fpTable_in_range, chainTable_ip_fp, permute_identityTable]

@[simp] theorem ip_fp (x : Block) : ip (fp x) = x := by
  rw [fp, ip, permute_permute fpTable_length ipTable_length ipTable_in_range, chainTable_fp_ip, permute_identityTable]

/-- Settles O40: each of the two tables, read through the other, is the identity table. -/
theorem initialAndFinalPermutationsInverse : Obligations.InitialAndFinalPermutationsInverse :=
  fun x => ⟨fp_ip x, ip_fp x⟩

end Sys2Proof.Machine

/-! PROOFS. The rotations of the key-schedule halves add up (spec/00_scope.md R12, spec/41_key_schedule.md R142, R148). -/

namespace Sys2Proof.Machine

theorem rotl28_mod (v : KeyHalf) (k : Nat) : rotl28 v (k % 28) = rotl28 v k := BitVec.rotateLeft_mod_eq_rotateLeft

@[simp] theorem rotl28_zero (v : KeyHalf) : rotl28 v 0 = v := by
  apply BitVec.eq_of_getLsbD_eq
  intro i hi
  rw [rotl28_getLsbD v (by omega) hi, Nat.sub_zero, Nat.add_mod_right, Nat.mod_eq_of_lt hi]

/-- A rotation by the width changes nothing (R148). -/
theorem rotl28_width (v : KeyHalf) : rotl28 v 28 = v := by
  rw [← rotl28_mod, Nat.mod_self, rotl28_zero]

theorem rotl28_rotl28 (v : KeyHalf) (j k : Nat) : rotl28 (rotl28 v j) k = rotl28 v (j + k) := by
  rw [← rotl28_mod v j, ← rotl28_mod _ k, ← rotl28_mod v (j + k)]
  apply BitVec.eq_of_getLsbD_eq
  intro i hi
  rw [rotl28_getLsbD _ (by omega) hi, rotl28_getLsbD _ (by omega) (by omega), rotl28_getLsbD _ (by omega) hi]
  congr 1
  omega

/-- The places by which rounds 1 to r have rotated the halves (spec/40_tables.md R127). -/
def rotationThrough (r : Nat) : Nat := ((List.range r).map fun i => shiftAmount (i + 1)).sum

@[simp] theorem rotationThrough_zero : rotationThrough 0 = 0 := rfl

theorem rotationThrough_succ (r : Nat) : rotationThrough (r + 1) = rotationThrough r + shiftAmount (r + 1) := by
  simp [rotationThrough, List.range_succ]

/-- The sixteen amounts of SHIFT add up to the width of a half (R127). -/
theorem rotationThrough_sixteen : rotationThrough 16 = 28 := by decide

/-- After r rounds the halves are the initial ones, rotated by what the r amounts add up to (R142). -/
theorem halvesAt_eq_rotl28 (key : Block) (r : Nat) :
    halvesAt key r =
      (rotl28 (initialHalves key).1 (rotationThrough r), rotl28 (initialHalves key).2 (rotationThrough r)) := by
  induction r with
  | zero => simp [halvesAt]
  | succ r ih => rw [halvesAt, ih, rotateHalves, rotl28_rotl28, rotl28_rotl28, rotationThrough_succ]

/-- Settles O43: the sixteen rotations add up to 28, and a rotation by 28 changes nothing. -/
theorem halvesReturnAfterSixteenRotations : Obligations.HalvesReturnAfterSixteenRotations := by
  intro key
  rw [halvesAt_eq_rotl28, rotationThrough_sixteen, rotl28_width, rotl28_width]
  rfl

end Sys2Proof.Machine

/-! PROOFS. What the constant tables hold (spec/40_tables.md R123 to R128, R138), and the source's vector over them (R120). -/

namespace Sys2Proof.Machine

theorem ipTable_count : ∀ b, 1 ≤ b → b ≤ 64 → ipTable.count b = 1 := by decide

theorem fpTable_count : ∀ b, 1 ≤ b → b ≤ 64 → fpTable.count b = 1 := by decide

theorem roundPermTable_count : ∀ b, 1 ≤ b → b ≤ 32 → roundPermTable.count b = 1 := by decide

theorem expansionTable_count : ∀ b, 1 ≤ b → b ≤ 32 →
    expansionTable.count b = if b ∈ [1, 4, 5, 8, 9, 12, 13, 16, 17, 20, 21, 24, 25, 28, 29, 32] then 2 else 1 := by
  decide

/-- PC-1 reads the key's bits but the parity bits 8, 16, ..., 64, each once (R125, R138). -/
theorem pc1Table_count : ∀ b, 1 ≤ b → b ≤ 64 → pc1Table.count b = if b % 8 = 0 then 0 else 1 := by decide

theorem pc2Table_count : ∀ b, 1 ≤ b → b ≤ 56 →
    pc2Table.count b = if b ∈ [9, 18, 22, 25, 35, 38, 43, 54] then 0 else 1 := by decide

/-- The high half of a subkey is read from C (R126). -/
theorem pc2Table_take_le : ∀ b ∈ pc2Table.take 24, b ≤ 28 := by decide

/-- The low half of a subkey is read from D (R126). -/
theorem pc2Table_drop_ge : ∀ b ∈ pc2Table.drop 24, 29 ≤ b := by decide

theorem shiftAmount_eq : ∀ r, 1 ≤ r → r ≤ 16 → shiftAmount r = if r ∈ [1, 2, 9, 16] then 1 else 2 := by decide

/-- Settles O39, table by table. -/
theorem tableFacts : Obligations.TableFacts :=
  ⟨fun b h1 h64 => ⟨ipTable_count b h1 h64, fpTable_count b h1 h64⟩,
    fun b h1 h32 => ⟨roundPermTable_count b h1 h32, expansionTable_count b h1 h32⟩,
    pc1Table_count, pc2Table_count, pc2Table_take_le, pc2Table_drop_ge, shiftAmount_eq,
    ipTable_length, fpTable_length, rfl, rfl, rfl, rfl⟩

/-- Every value of four bits stands in every row of every S-box (R128, R138). -/
theorem mem_sboxTable_row (k : Nat) : ∀ row ∈ sboxTable k, ∀ v < 16, v ∈ row := by
  unfold sboxTable
  split <;> decide

/-- Settles O41: a row of sixteen entries in which all sixteen values stand. -/
theorem sboxRowsArePermutations : Obligations.SboxRowsArePermutations := by
  intro k _
  obtain ⟨hrows, hcols⟩ := sboxTable_shape k
  exact ⟨hrows, fun row hrow => ⟨hcols row hrow, mem_sboxTable_row k row hrow⟩⟩

theorem encrypt_v1 : encrypt 0x0123456789ABCDEF#64 0x133457799BBCDFF1#64 = 0x85E813540F0AB405#64 := by decide +kernel

theorem decrypt_v1 : decrypt 0x85E813540F0AB405#64 0x133457799BBCDFF1#64 = 0x0123456789ABCDEF#64 := by decide +kernel

/-- Settles O38: both ways of V1 of spec/95_test_vectors.md, evaluated. -/
theorem knownAnswerVector : Obligations.KnownAnswerVector := ⟨encrypt_v1, decrypt_v1⟩

end Sys2Proof.Machine


/-! PROOFS. The key-schedule edge (spec/41_key_schedule.md R147), and what an access can do to any edge while BUSY = 1. -/

namespace Sys2Proof.Machine

/-- `u` with the fields that an access in a busy cycle can change taken from `t`: the W1C flags, CTRL and bus_rdata. -/
def withAccessFields (t u : State) : State :=
  { u with
    done := t.done, errCmd := t.errCmd, errBusy := t.errBusy, irqEn := t.irqEn, rkSel := t.rkSel
    busRdata := t.busRdata }

/-- While BUSY = 1 the host's write changes W1C flags and CTRL only, and never sets DONE (R211, spec/60_exceptions.md R251). -/
theorem HostWrite.eq_withAccessFields {s : State} {write : State → State} (hw : HostWrite s write)
    (hb : s.busy = true) (u : State) :
    write u = withAccessFields (write u) u ∧ ((write u).done = true → u.done = true) := by
  cases hw
  case none | ctrl | dropped => exact ⟨rfl, id⟩
  case status => exact ⟨rfl, fun h => (Bool.and_eq_true_iff.mp h).1⟩
  case key h | iv h | din h | reserved h => exact absurd (hb.symm.trans h) (by decide)
  case command h _ _ => exact absurd (hb.symm.trans h) (by decide)

/-- A busy edge with rst = 0 is the engine's part but for the fields an access can change; DONE is set by a completion,
and by nothing else. -/
theorem edgeWith_of_busy (access : Option Instr) {s : State} (hb : s.busy = true) :
    ∃ t, edgeWith access s = .next (withAccessFields t (engineEdge s).1) ∧
      ((engineEdge s).2 = true → t.done = true) ∧ ((engineEdge s).2 = false → t.done = true → s.done = true) := by
  obtain ⟨rdata, write, hw, he⟩ := edgeWith_cases access s
  obtain ⟨hwrite, hdone⟩ := hw.eq_withAccessFields hb (engineEdge s).1
  obtain ⟨-, -, hengine, -⟩ := engineEdge_frame s
  refine ⟨driveRdata rdata (edge s write), ?_, ?_, ?_⟩
  · rw [he, edge_eq, hwrite]
    rfl
  · intro hc
    simp [edge_eq, hc]
  · intro hc h
    rw [← hengine]
    exact hdone (by simpa [edge_eq, hc] using h)

/-- What every key-schedule edge does to the datapath: it rotates C and D, stores their subkey and leaves L and R. -/
theorem ksEdge_datapath (s : State) :
    (ksEdge s).1.c = rotl28 s.c (shiftAmount s.cnt.toNat) ∧ (ksEdge s).1.d = rotl28 s.d (shiftAmount s.cnt.toNat) ∧
    (ksEdge s).1.rk = rkWrite s.rk s.cnt.toNat (pc2 ((ksEdge s).1.c ++ (ksEdge s).1.d)) ∧
    (ksEdge s).1.l = s.l ∧ (ksEdge s).1.r = s.r := by
  by_cases hc : s.cnt = 16#5
  · by_cases hop : s.opL = opKeysched
    · rw [ksEdge_completes hc hop, hc]; exact ⟨rfl, rfl, rfl, rfl, rfl⟩
    · rw [ksEdge_toRounds hc hop, hc]; exact ⟨rfl, rfl, rfl, rfl, rfl⟩
  · rw [ksEdge_early hc]; exact ⟨rfl, rfl, rfl, rfl, rfl⟩

/-- In the spec's range, writing an entry leaves every other one alone. -/
theorem rkRead_rkWrite_of_ne (rk : RkStore) (k : RoundKey) {r q : Nat} (hr1 : 1 ≤ r) (hr : r ≤ 16) (hq1 : 1 ≤ q)
    (hq : q ≤ 16) (hne : q ≠ r) : rkRead (rkWrite rk r k) q = rkRead rk q := by
  refine rkRead_rkWrite_other rk k ?_
  rw [rkPlace_of_range hr1 hr, rkPlace_of_range hq1 hq]
  omega

/-- Settles O28: the datapath's part is one for all sixteen edges; the control part is told by the count and the command. -/
theorem keyScheduleEdge : Obligations.KeyScheduleEdge := by
  intro access s hp h1 h16
  obtain ⟨t, he, hset, hkept⟩ := edgeWith_of_busy access (busy_eq_true_iff.mpr (.inl hp))
  obtain ⟨hkey, hdin, -, -, -, -, -, hop, hchain, hcin, -, hinputs, -⟩ := engineEdge_frame s
  rw [engineEdge_ks hp] at he hset hkept hkey hdin hop hchain hcin hinputs
  obtain ⟨hc, hd, hrk, hl, hr⟩ := ksEdge_datapath s
  obtain ⟨hdout, hiv⟩ := ksEdge_dout_iv s
  have hcnt : s.cnt.toNat = 16 → s.cnt = 16#5 := fun h => BitVec.eq_of_toNat_eq h
  refine ⟨_, he, hc, hd, ?_, ?_, ?_, ?_, ?_, hkey, hiv, hdin, hdout, hop, hl, hr, hchain, hcin, hinputs⟩
  · exact (congrArg (rkRead · s.cnt.toNat) hrk).trans (rkRead_rkWrite_same _ _ _)
  · intro q hq1 hq hne
    exact (congrArg (rkRead · q) hrk).trans (rkRead_rkWrite_of_ne _ _ h1 h16 hq1 hq hne)
  · intro hlt
    have hn : s.cnt ≠ 16#5 := by rintro h; rw [h] at hlt; exact absurd hlt (by decide)
    have hsucc : (s.cnt + 1#5).toNat = s.cnt.toNat + 1 := by
      rw [BitVec.toNat_add, BitVec.toNat_ofNat]; omega
    rw [ksEdge_early hn] at hkept ⊢
    exact ⟨hp, hsucc, rfl, hkept rfl⟩
  · intro hn hks
    rw [ksEdge_completes (hcnt hn) hks] at hset ⊢
    exact ⟨rfl, rfl, rfl, hset rfl⟩
  · intro hn hks
    rw [ksEdge_toRounds (hcnt hn) hks] at hkept ⊢
    exact ⟨rfl, rfl, rfl, hkept rfl⟩

end Sys2Proof.Machine

/-! PROOFS. The key schedule as a function of PC-1's bits (spec/41_key_schedule.md R140, R150), and keys whose halves no
rotation changes (R149, R151). -/

namespace Sys2Proof.Machine

/-- Permute reads the bits that its table names, and no other (R10). -/
theorem permute_congr {n m : Nat} {table : List Nat} {v w : BitVec n} (h : ∀ t ∈ table, desBit v t = desBit w t) :
    permute m table v = permute m table w :=
  congrArg (BitVec.ofNat m) (List.foldl_ext _ _ _ fun _ t ht => by rw [h t ht])

/-- The mask of the bits that are no parity bits covers all that PC-1 reads (spec/40_tables.md R138). -/
theorem desBit_keyMask : ∀ t ∈ pc1Table, desBit 0xFEFEFEFEFEFEFEFE#64 t = true := by decide

theorem pc1_congr {a b : Block} (h : a &&& 0xFEFEFEFEFEFEFEFE#64 = b &&& 0xFEFEFEFEFEFEFEFE#64) : pc1 a = pc1 b :=
  permute_congr fun t ht => getLsbD_eq_of_and_eq h (desBit_keyMask t ht)

/-- The whole key schedule is a function of what PC-1 takes of the key. -/
theorem keySchedule_congr {a b : Block} (h : pc1 a = pc1 b) : keySchedule a = keySchedule b := by
  simp only [keySchedule, subkey, halvesAt_eq_rotl28, initialHalves, h]

/-- Settles O45: PC-1 reads no parity bit, and the key is used through its key schedule alone. -/
theorem parityBitsDoNotMatter : Obligations.ParityBitsDoNotMatter := by
  intro a b h
  have hks := keySchedule_congr (pc1_congr h)
  exact ⟨hks, fun x => ⟨congrArg (transform x · false) hks, congrArg (transform x · true) hks⟩⟩

/-- No rotation changes a half of zeros or a half of ones. -/
theorem rotl28_uniform {v : KeyHalf} (h : v = 0#28 ∨ v = 0xFFFFFFF#28) (k : Nat) : rotl28 v k = v := by
  rw [← rotl28_mod]
  apply BitVec.eq_of_getLsbD_eq
  intro i hi
  rw [rotl28_getLsbD v (Nat.mod_lt _ (by decide)) hi]
  rcases h with rfl | rfl
  · simp
  · have hones : 0xFFFFFFF#28 = BitVec.allOnes 28 := rfl
    rw [hones, BitVec.getLsbD_allOnes, BitVec.getLsbD_allOnes]
    simp [hi, Nat.mod_lt]

/-- A key whose C0 and D0 are uniform has one subkey, that of (C0, D0). -/
theorem subkey_uniform {key : Block} {c d : KeyHalf} (h : initialHalves key = (c, d))
    (hc : c = 0#28 ∨ c = 0xFFFFFFF#28) (hd : d = 0#28 ∨ d = 0xFFFFFFF#28) (r : Nat) :
    subkey key r = subkeyOf (c, d) := by
  rw [subkey, halvesAt_eq_rotl28, h, rotl28_uniform hc, rotl28_uniform hd]

/-- The rounds use a store through the subkeys of their order alone (R166). -/
theorem halvesAfter_congr {rk rk' : RkStore} {rev rev' : Bool} (lr : Half × Half) {n : Nat}
    (h : ∀ i, 1 ≤ i → i ≤ n → subkeyInOrder rk rev i = subkeyInOrder rk' rev' i) :
    halvesAfter rk rev lr n = halvesAfter rk' rev' lr n := by
  induction n with
  | zero => rfl
  | succ n ih =>
    rw [halvesAfter, halvesAfter, ih fun i h1 hi => h i h1 (Nat.le_succ_of_le hi),
      h (n + 1) (Nat.le_add_left 1 n) (Nat.le_refl _)]

/-- Settles O46: one subkey in every round makes the two orders one. -/
theorem equalSubkeyKeys : Obligations.EqualSubkeyKeys := by
  intro key hc hd
  have hone (r : Nat) : subkey key r = subkeyOf (initialHalves key) := subkey_uniform rfl hc hd r
  refine ⟨fun r _ _ => (hone r).trans (hone 1).symm, fun x => ?_⟩
  refine congrArg preOutput (halvesAfter_congr (n := 16) _ fun i h1 h16 => ?_)
  have hforward : subkeyInOrder (keySchedule key) false i = subkey key i := rkRead_keySchedule key h1 h16
  have hreverse : subkeyInOrder (keySchedule key) true i = subkey key (17 - i) :=
    rkRead_keySchedule key (by omega) (by omega)
  rw [hforward, hreverse, hone, hone]

theorem initialHalves_zero : initialHalves 0#64 = (0#28, 0#28) := by decide

theorem initialHalves_ones : initialHalves 0xFFFFFFFFFFFFFFFF#64 = (0xFFFFFFF#28, 0xFFFFFFF#28) := by decide

/-- Settles O44: the halves are uniform, so each round key is the first one, which is evaluated. -/
theorem keyScheduleAtTheExtremes : Obligations.KeyScheduleAtTheExtremes := by
  intro r h1 h16
  constructor
  · rw [rkRead_keySchedule _ h1 h16, subkey_uniform initialHalves_zero (.inl rfl) (.inl rfl)]
    decide
  · rw [rkRead_keySchedule _ h1 h16, subkey_uniform initialHalves_ones (.inr rfl) (.inr rfl)]
    decide

end Sys2Proof.Machine

/-! PROOFS. The round edge (spec/42_feistel.md R170) and the completion that ends it (spec/44_commands.md R216,
spec/43_cbc.md R192, R193). -/

namespace Sys2Proof.Machine

theorem takesReverse_eq_false_iff (op : Opcode) : takesReverse op = false ↔ op = 0x1#4 ∨ op = 0x3#4 := by
  revert op; decide

/-- The subkey of a round, by the opcode's number: ECB_ENC and CBC_ENC count up, all others down (R166, R170). -/
theorem subkeyInOrder_takesReverse (rk : RkStore) (op : Opcode) (i : Nat) :
    subkeyInOrder rk (takesReverse op) i =
      if op = 0x1#4 ∨ op = 0x3#4 then rkRead rk i else rkRead rk (17 - i) := by
  simp only [← takesReverse_eq_false_iff]
  cases takesReverse op <;> rfl

/-- What every round edge does to the datapath: one Feistel round on L and R, and no write of the key schedule's part. -/
theorem rndEdge_datapath (s : State) :
    (rndEdge s).1.l = (nextRoundHalves s).1 ∧ (rndEdge s).1.r = (nextRoundHalves s).2 ∧ (rndEdge s).1.rk = s.rk ∧
    (rndEdge s).1.rkValid = s.rkValid ∧ (rndEdge s).1.c = s.c ∧ (rndEdge s).1.d = s.d := by
  by_cases hc : s.cnt = 16#5
  · rw [rndEdge_completes hc]; simp
  · rw [rndEdge_early hc]; exact ⟨rfl, rfl, rfl, rfl, rfl, rfl⟩

/-- The last round edge delivers FP(R16 ‖ L16) of the halves it leaves, by way of the chaining arbiter, to DOUT and IV;
an opcode that is no block command delivers nothing (R167, R192, R193). -/
theorem rndEdge_delivers {s : State} (hc : s.cnt = 16#5) :
    (isBlockOp s.opL = true →
      (rndEdge s).1.dout = chainOutput s.opL (fp ((rndEdge s).1.r ++ (rndEdge s).1.l)) s.chainL ∧
      (rndEdge s).1.iv = chainNext s.opL (rndEdge s).1.dout s.cinL s.iv) ∧
    (isBlockOp s.opL = false → (rndEdge s).1.dout = s.dout ∧ (rndEdge s).1.iv = s.iv) := by
  rw [rndEdge_completes hc]
  constructor
  · intro hop; simp [hop, preOutput]
  · intro hop; simp [hop]

/-- The completion's writes of DOUT and IV, opcode by opcode: y is FP(R16 ‖ L16) of the edge. -/
theorem rndEdge_delivers_by_op {s : State} (hc : s.cnt = 16#5) {y : Block}
    (hy : y = fp ((rndEdge s).1.r ++ (rndEdge s).1.l)) :
    (s.opL = 0x1#4 ∨ s.opL = 0x2#4 → (rndEdge s).1.dout = y ∧ (rndEdge s).1.iv = s.iv) ∧
    (s.opL = 0x3#4 → (rndEdge s).1.dout = y ∧ (rndEdge s).1.iv = (rndEdge s).1.dout) ∧
    (s.opL = 0x4#4 → (rndEdge s).1.dout = y ^^^ s.chainL ∧ (rndEdge s).1.iv = s.cinL) ∧
    (s.opL = 0x0#4 ∨ 0x5#4 ≤ s.opL → (rndEdge s).1.dout = s.dout ∧ (rndEdge s).1.iv = s.iv) := by
  obtain ⟨hblock, hother⟩ := rndEdge_delivers hc
  rw [← hy] at hblock
  refine ⟨?_, ?_, ?_, ?_⟩
  · rintro (hop | hop) <;> (rw [hop] at hblock; exact hblock rfl)
  · intro hop; rw [hop] at hblock; exact hblock rfl
  · intro hop; rw [hop] at hblock; exact hblock rfl
  · intro hop
    refine hother ?_
    rw [Bool.eq_false_iff, ne_eq, isBlockOp_iff_range]
    bv_omega

/-- Settles O29: the datapath's part is one for all sixteen edges; the control part, DOUT and IV are told by the count, and
at 16 by the command. -/
theorem roundEdge : Obligations.RoundEdge := by
  intro access s hp h1 h16
  obtain ⟨t, he, hset, hkept⟩ := edgeWith_of_busy access (busy_eq_true_iff.mpr (.inr hp))
  obtain ⟨hkey, hdin, -, -, -, -, -, hop, hchain, hcin, -, hinputs, -⟩ := engineEdge_frame s
  rw [engineEdge_rnd hp] at he hset hkept hkey hdin hop hchain hcin hinputs
  obtain ⟨hl, hr, hrk, hvalid, hc, hd⟩ := rndEdge_datapath s
  refine ⟨_, he, hl, ?_, ?_, ?_, hkey, hdin, hrk, hvalid, hop, hc, hd, hchain, hcin, hinputs⟩
  · rw [← subkeyInOrder_takesReverse]
    exact hr
  · intro hlt
    have hn : s.cnt ≠ 16#5 := by rintro h; rw [h] at hlt; exact absurd hlt (by decide)
    have hsucc : (s.cnt + 1#5).toNat = s.cnt.toNat + 1 := by
      rw [BitVec.toNat_add, BitVec.toNat_ofNat]; omega
    rw [rndEdge_early hn] at hkept ⊢
    exact ⟨hp, hsucc, rfl, rfl, hkept rfl⟩
  · intro hn
    have hlast : s.cnt = 16#5 := BitVec.eq_of_toNat_eq hn
    have hphase : (rndEdge s).1.phase = .idle ∧ (rndEdge s).1.cnt = 0#5 ∧ (rndEdge s).2 = true := by
      rw [rndEdge_completes hlast]; exact ⟨rfl, rfl, rfl⟩
    obtain ⟨hidle, hcnt, hcompletes⟩ := hphase
    exact ⟨hidle, hcnt, hset hcompletes, rndEdge_delivers_by_op hlast rfl⟩

end Sys2Proof.Machine

/-! PROOFS. The lanes of the substitution layer (spec/42_feistel.md R162, R174). -/

namespace Sys2Proof.Machine

/-- Settles O42: a read from bit 32 - 4j passes over the outputs of the later lanes, which lie below it, and of what is left
takes the last one, lane j's (lane 1 is all that is left of the word). -/
theorem substitutionIsEightLanes : Obligations.SubstitutionIsEightLanes := by
  intro x j h1 h8
  unfold substitute
  interval_cases j <;>
    simp (disch := decide) only [Nat.reduceMul, Nat.reduceSub, BitVec.extractLsb'_append_eq_of_le,
      BitVec.extractLsb'_append_eq_right, BitVec.extractLsb'_eq_self, sixBits]

end Sys2Proof.Machine

/-! PROOFS. The transform in one order of the subkeys undoes the transform in the other (spec/42_feistel.md R172): a round
undoes itself on swapped halves, so the second sixteen rounds take back the first sixteen, the last one first. -/

namespace Sys2Proof.Machine

@[simp] theorem splitBlock_append (l r : Half) : splitBlock (l ++ r) = (l, r) := by simp [splitBlock]

theorem preOutput_splitBlock_swap (v : Block) : preOutput (splitBlock v).swap = fp v :=
  congrArg fp (hi32_append_lo32 v)

/-- A round, its result's halves swapped, and the same round again: the halves of before, swapped (R165). -/
theorem feistelRound_swap_feistelRound (lr : Half × Half) (k : RoundKey) :
    feistelRound (feistelRound lr k).swap k = lr.swap :=
  Prod.ext rfl (xor_cancel_right lr.1 (roundFunction lr.2 k))

/-- Round i + 1 of one order takes the subkey of round 16 - i of the other (R166). -/
theorem subkeyInOrder_not (rk : RkStore) (rev : Bool) {i : Nat} (hi : i < 16) :
    subkeyInOrder rk (!rev) (i + 1) = subkeyInOrder rk rev (16 - i) := by
  cases rev with
  | false => exact congrArg (rkRead rk) (by omega : 17 - (i + 1) = 16 - i)
  | true => exact congrArg (rkRead rk) (by omega : i + 1 = 17 - (16 - i))

/-- Each round of the second pass takes back one round of the first. -/
theorem halvesAfter_takes_back (rk : RkStore) (rev : Bool) (lr : Half × Half) {i : Nat} (hi : i ≤ 16) :
    halvesAfter rk (!rev) (halvesAfter rk rev lr 16).swap i = (halvesAfter rk rev lr (16 - i)).swap := by
  induction i with
  | zero => rfl
  | succ i ih =>
    have hround : halvesAfter rk rev lr (16 - i) =
        feistelRound (halvesAfter rk rev lr (16 - (i + 1))) (subkeyInOrder rk rev (16 - i)) := by
      obtain ⟨j, hj⟩ : ∃ j, 16 - i = j + 1 := ⟨15 - i, by omega⟩
      rw [hj, (by omega : 16 - (i + 1) = j)]
      rfl
    rw [halvesAfter, ih (Nat.le_of_succ_le hi), subkeyInOrder_not rk rev hi, hround, feistelRound_swap_feistelRound]

/-- The transform in one order undoes the transform in the other, by any store (R172). -/
theorem transform_transform (block : Block) (rk : RkStore) (rev : Bool) :
    transform (transform block rk rev) rk (!rev) = block := by
  have hsplit (lr : Half × Half) : splitBlock (ip (preOutput lr)) = lr.swap := by
    rw [preOutput, ip_fp, splitBlock_append]; rfl
  rw [transform, transform, hsplit, Config.rounds, halvesAfter_takes_back rk rev _ (Nat.le_refl 16)]
  exact (preOutput_splitBlock_swap (ip block)).trans (fp_ip block)

theorem decrypt_encrypt (block key : Block) : decrypt (encrypt block key) key = block :=
  transform_transform block (keySchedule key) false

theorem encrypt_decrypt (block key : Block) : encrypt (decrypt block key) key = block :=
  transform_transform block (keySchedule key) true

/-- For a fixed key, blocks that differ encrypt to blocks that differ (R172). -/
theorem encrypt_injective (key : Block) : Function.Injective (encrypt · key) :=
  Function.LeftInverse.injective (g := (decrypt · key)) fun block => decrypt_encrypt block key

/-- Settles O47: encrypt and decrypt are the transform in the two orders of one key schedule. -/
theorem decryptInvertsEncrypt : Obligations.DecryptInvertsEncrypt :=
  fun key => ⟨(decrypt_encrypt · key), (encrypt_decrypt · key), fun _ _ hne => (encrypt_injective key).ne hne⟩

end Sys2Proof.Machine

/-! PROOFS. The complementation property (spec/42_feistel.md R175): complement goes through every permutation, rotation and
half, and cancels where the round function adds the subkey. -/

namespace Sys2Proof.Machine

theorem ip_not (x : Block) : ip (~~~x) = ~~~ip x := permute_not ipTable rfl ipTable_in_range x

theorem fp_not (x : Block) : fp (~~~x) = ~~~fp x := permute_not fpTable rfl fpTable_in_range x

theorem expand_not (r : Half) : expand (~~~r) = ~~~expand r := permute_not expansionTable rfl expansionTable_in_range r

theorem pc1_not (key : Block) : pc1 (~~~key) = ~~~pc1 key := permute_not pc1Table rfl pc1Table_in_range key

theorem pc2_not (cd : BitVec 56) : pc2 (~~~cd) = ~~~pc2 cd := permute_not pc2Table rfl pc2Table_in_range cd

/-- Complement goes through a field's extraction, the topmost field among them. -/
theorem extractLsb'_not_of_le {n : Nat} (v : BitVec n) {start len : Nat} (h : start + len ≤ n) :
    (~~~v).extractLsb' start len = ~~~(v.extractLsb' start len) := by
  apply BitVec.eq_of_getLsbD_eq
  intro i hi
  have hplace : start + i < n := by omega
  simp [hi, hplace]

theorem rotl28_not (v : KeyHalf) (k : Nat) : rotl28 (~~~v) k = ~~~rotl28 v k := by
  rw [← rotl28_mod, ← rotl28_mod v]
  have hk : k % 28 < 28 := Nat.mod_lt _ (by decide)
  apply BitVec.eq_of_getLsbD_eq
  intro i hi
  rw [BitVec.getLsbD_not, rotl28_getLsbD _ hk hi, rotl28_getLsbD _ hk hi, BitVec.getLsbD_not]
  simp [hi, Nat.mod_lt]

/-- Both halves of a pair complemented. -/
def complementHalves {n : Nat} (p : BitVec n × BitVec n) : BitVec n × BitVec n := (~~~p.1, ~~~p.2)

theorem splitBlock_not (v : Block) : splitBlock (~~~v) = complementHalves (splitBlock v) :=
  Prod.ext (extractLsb'_not_of_le v (by decide)) (extractLsb'_not_of_le v (by decide))

theorem initialHalves_not (key : Block) : initialHalves (~~~key) = complementHalves (initialHalves key) := by
  rw [initialHalves, pc1_not]
  exact Prod.ext (extractLsb'_not_of_le _ (by decide)) (extractLsb'_not_of_le _ (by decide))

theorem subkey_not (key : Block) (r : Nat) : subkey (~~~key) r = ~~~subkey key r := by
  simp only [subkey, subkeyOf, halvesAt_eq_rotl28, initialHalves_not, complementHalves, rotl28_not, ← BitVec.not_append]
  exact pc2_not _

/-- Every entry of a store complemented. -/
def complementStore (rk : RkStore) : RkStore := rk.map (~~~·)

theorem keySchedule_not (key : Block) : keySchedule (~~~key) = complementStore (keySchedule key) := by
  simp only [keySchedule, complementStore, Vector.map_ofFn, subkey_not]
  rfl

theorem subkeyInOrder_complementStore (rk : RkStore) (rev : Bool) (i : Nat) :
    subkeyInOrder (complementStore rk) rev i = ~~~subkeyInOrder rk rev i := by
  cases rev <;> exact Vector.getElem_map ..

/-- The two complements cancel in E(r) xor k (R164, R175). -/
theorem roundFunction_not (r : Half) (k : RoundKey) : roundFunction (~~~r) (~~~k) = roundFunction r k := by
  have hcancel : ~~~expand r ^^^ ~~~k = expand r ^^^ k := by
    rw [← BitVec.not_xor_left, ← BitVec.not_xor_right, BitVec.not_not]
  rw [roundFunction, roundFunction, expand_not, hcancel]

theorem feistelRound_not (lr : Half × Half) (k : RoundKey) :
    feistelRound (complementHalves lr) (~~~k) = complementHalves (feistelRound lr k) := by
  simp only [feistelRound, complementHalves, roundFunction_not, BitVec.not_xor_left]

theorem halvesAfter_not (rk : RkStore) (rev : Bool) (lr : Half × Half) (n : Nat) :
    halvesAfter (complementStore rk) rev (complementHalves lr) n = complementHalves (halvesAfter rk rev lr n) := by
  induction n with
  | zero => rfl
  | succ n ih => rw [halvesAfter, ih, subkeyInOrder_complementStore, feistelRound_not]; rfl

theorem preOutput_not (lr : Half × Half) : preOutput (complementHalves lr) = ~~~preOutput lr := by
  rw [preOutput, complementHalves, ← BitVec.not_append, fp_not]
  rfl

/-- The transform of the complements is the complement of the transform, in either order (R175). -/
theorem transform_not (block : Block) (rk : RkStore) (rev : Bool) :
    transform (~~~block) (complementStore rk) rev = ~~~transform block rk rev := by
  rw [transform, ip_not, splitBlock_not, halvesAfter_not, preOutput_not]
  rfl

/-- Settles O48: the complemented key's schedule is the complemented schedule, and encrypt and decrypt are the transform by it
in its two orders. -/
theorem complementation : Obligations.Complementation := by
  intro block key
  rw [encrypt, decrypt, keySchedule_not]
  exact ⟨transform_not block (keySchedule key) false, transform_not block (keySchedule key) true⟩

end Sys2Proof.Machine

/-! PROOFS. The host's lines that play one block command (R100, spec/43_cbc.md R196): the state at the end of POLL, told from
the state at acceptance, and a run of one such line per block. -/

namespace Sys2Proof.Machine

/-! What the command in flight leaves in KEY, DOUT and IV, a function that none of its edges changes. -/

/-- KEY, DOUT and IV as they stand once the command in flight, if there is one, has completed (R216, R217), all else at its
reset value. -/
def onceDone (s : State) : State :=
  let result := commandResult s.opL s.din s.iv s.key
  { State.reset with
    key := s.key
    dout := if s.busy && isBlockOp s.opL then result else s.dout
    iv := if s.busy then chainNext s.opL result s.din s.iv else s.iv }

theorem onceDone_rest {s : State} (hb : s.busy = false) :
    onceDone s = { State.reset with key := s.key, dout := s.dout, iv := s.iv } := by
  simp [onceDone, hb]

theorem onceDone_ksEdge {s : State} (hp : s.phase = .ks) : onceDone (ksEdge s).1 = onceDone s := by
  by_cases hc : s.cnt = 16#5
  · by_cases hop : s.opL = opKeysched
    · rw [ksEdge_completes hc hop, onceDone_rest rfl]
      simp [onceDone, State.busy, hp, hop, isBlockOp, chainNext, opKeysched, opEcbEnc, opEcbDec, opCbcEnc, opCbcDec]
    · rw [ksEdge_toRounds hc hop]
      simp [onceDone, State.busy, hp]
  · rw [ksEdge_early hc]
    rfl

theorem onceDone_rndEdge {s : State} (h : Coherent s) (hp : s.phase = .rnd) : onceDone (rndEdge s).1 = onceDone s := by
  obtain ⟨hr, hs⟩ := (coherent_rnd_iff hp).mp h
  by_cases hc : s.cnt = 16#5
  · rw [rndEdge_completes hc, onceDone_rest rfl]
    simp [onceDone, State.busy, hp, hr.op_legal, hr.delivered hs hc, hr.inFlight.cin_latched]
  · rw [rndEdge_early hc]
    rfl

theorem onceDone_engineEdge {s : State} (h : Coherent s) : onceDone (engineEdge s).1 = onceDone s := by
  cases hp : s.phase with
  | idle => rw [engineEdge_idle hp]
  | ks => rw [engineEdge_ks hp]; exact onceDone_ksEdge hp
  | rnd => rw [engineEdge_rnd hp]; exact onceDone_rndEdge h hp

theorem onceDone_quietCycle {s : State} (h : Coherent s) (v : Block) : onceDone (quietCycle s v) = onceDone s := by
  rw [quietCycle, edge_eq]
  exact onceDone_engineEdge h

/-- Acceptance of a block command settles what it leaves: the source's result for the operands (R217), and the next chain
value (R193). -/
theorem onceDone_accept (s : State) {op : Opcode} (hop : isBlockOp op = true) :
    onceDone (accept s op s) =
      { State.reset with
        key := s.key, dout := commandResult op s.din s.iv s.key
        iv := chainNext op (commandResult op s.din s.iv s.key) s.din s.iv } := by
  unfold accept
  split <;> simp [onceDone, latchOperands, hop]

/-! POLL. -/

/-- What every STATUS read keeps, POLL keeps. -/
theorem pollStatus_keeps {P : State → Prop} (hread : ∀ u, P u → P (quietCycle u (statusWord u))) (fuel : Nat)
    {s t : State} {reads : List Block} (hpoll : pollStatus fuel s = some (t, reads)) (hs : P s) : P t := by
  induction fuel generalizing s reads with
  | zero => simp [pollStatus] at hpoll
  | succ fuel ih =>
    cases hb : s.busy with
    | false =>
      rw [pollStatus_of_rest hb] at hpoll
      obtain ⟨rfl, -⟩ := Prod.mk.inj (Option.some.inj hpoll)
      exact hread s hs
    | true =>
      cases hrec : pollStatus fuel (quietCycle s (statusWord s)) with
      | none =>
        have hr : (quietCycle s (statusWord s)).busRdata = statusWord s := rfl
        simp [pollStatus, next?_readStatus, hr, hb, hrec] at hpoll
      | some found =>
        obtain ⟨u, more⟩ := found
        rw [pollStatus_of_busy hb hrec] at hpoll
        obtain ⟨rfl, -⟩ := Prod.mk.inj (Option.some.inj hpoll)
        exact ih hrec (hread s hs)

/-- The state at the end of POLL is coherent and holds what the command in flight leaves. -/
theorem pollStatus_onceDone {fuel : Nat} {s t : State} {reads : List Block} (h : Coherent s)
    (hpoll : pollStatus fuel s = some (t, reads)) : Coherent t ∧ onceDone t = onceDone s := by
  refine pollStatus_keeps (P := fun u => Coherent u ∧ onceDone u = onceDone s) ?_ fuel hpoll ⟨h, rfl⟩
  rintro u ⟨hu, hdone⟩
  exact ⟨(hu.edge .none).driveRdata _, (onceDone_quietCycle hu _).trans hdone⟩

/-! One line of a block command. -/

theorem runHostSteps_cons {a : HostStep} {rest : List HostStep} {s t u : State} {reads more : List Block}
    (ha : a.run s = some (t, reads)) (hrest : runHostSteps rest t = some (u, more)) :
    runHostSteps (a :: rest) s = some (u, reads ++ more) := by
  simp [runHostSteps, ha, hrest]

theorem run_writeDin {s : State} (hb : s.busy = false) (v : Block) :
    (HostStep.access (.wr .din v)).run s = some (driveRdata 0#64 (loadDin v s), []) := by
  obtain ⟨-, -, hexec⟩ := writeOfADataRegister s v hb
  simp only [HostStep.run, next?_access rfl hexec]
  rfl

theorem run_cmdName {op : CmdName} {s t : State} (hexec : exec op.instr s = .next t) :
    (HostStep.access op.instr).run s = some (t, []) := by
  have hnext : next? (PortIn.access op.instr) s = some t := next?_access (by cases op <;> rfl) hexec
  simp only [HostStep.run, hnext]
  cases op <;> rfl

theorem run_readDout {s : State} (hb : s.busy = false) :
    (HostStep.access (.rd .dout)).run s = some (driveRdata s.dout s, [s.dout]) := by
  have hexec : exec (.rd .dout) s = .next (driveRdata s.dout s) := by
    rw [exec_rd, idleCycle_idle hb]
    rfl
  simp only [HostStep.run, next?_access rfl hexec]
  rfl

/-- A command line and its POLL, from rest: both end, and at the end KEY, DOUT and IV are what acceptance settled. -/
theorem run_command_poll {op : CmdName} (hop : op ≠ .nop) {s : State} (h : Coherent s) (hb : s.busy = false) :
    ∃ accepted t reads, (HostStep.access op.instr).run s = some (accepted, []) ∧
      HostStep.poll.run accepted = some (t, reads) ∧ Coherent t ∧ t.busy = false ∧
      onceDone t = onceDone (accept s op.opcode s) := by
  obtain ⟨accepted, t, reads, last, hexec, hpoll, -, -, -, htb⟩ := pollReadsBusyLatencyTimes s op h hb hop
  obtain rfl : driveRdata 0#64 (accept s op.opcode s) = accepted := by
    simpa [exec_cmdName hb hop] using hexec
  obtain ⟨h0, h5⟩ := CmdName.opcode_legal hop
  obtain ⟨ht, hdone⟩ := pollStatus_onceDone ((h.accept h0 h5).driveRdata 0#64) hpoll
  exact ⟨_, t, _, run_cmdName hexec, hpoll, ht, htb, hdone⟩

/-- A line of a block command, from rest: its last read is the command's result (R217), IV takes the next chain value (R193)
and KEY stays. -/
theorem runHostProgram_block {op : CmdName} (hop : isBlockOp op.opcode = true) {s : State} (h : Coherent s)
    (hb : s.busy = false) (b : Block) :
    ∃ t reads, runHostProgram [.block op b] s = some (t, reads ++ [commandResult op.opcode b s.iv s.key]) ∧
      Coherent t ∧ t.busy = false ∧ t.key = s.key ∧
      t.iv = chainNext op.opcode (commandResult op.opcode b s.iv s.key) b s.iv := by
  have hnop : op ≠ .nop := by rintro rfl; exact absurd hop (by decide)
  have hloaded : Coherent (driveRdata 0#64 (loadDin b s)) :=
    ((HostWrite.din b hb).keeps_coherent h fun _ => rfl).driveRdata 0#64
  obtain ⟨accepted, t, reads, hcmd, hpoll, ht, htb, hdone⟩ := run_command_poll hnop hloaded hb
  rw [onceDone_accept _ hop, onceDone_rest htb] at hdone
  have hkey : t.key = s.key := (congrArg State.key hdone :)
  have hdout : t.dout = commandResult op.opcode b s.iv s.key := (congrArg State.dout hdone :)
  have hiv : t.iv = chainNext op.opcode (commandResult op.opcode b s.iv s.key) b s.iv := (congrArg State.iv hdone :)
  have hsteps := runHostSteps_cons (run_writeDin hb b) <| runHostSteps_cons hcmd <| runHostSteps_cons hpoll <|
    runHostSteps_cons (run_readDout htb) (rest := []) rfl
  refine ⟨driveRdata t.dout t, reads, ?_, ht.driveRdata _, htb, hkey, hiv⟩
  rw [runHostProgram, List.flatMap_singleton, ← hdout]
  exact hsteps

/-! One line per block. -/

/-- The results of one block command after another, each with the chain value that the one before it left (R193, R196). -/
def chainedResults (op : Opcode) (blocks : List Block) (key iv : Block) : List Block :=
  match blocks with
  | [] => []
  | b :: rest =>
    commandResult op b iv key :: chainedResults op rest key (chainNext op (commandResult op b iv key) b iv)

/-- The chain value that a sequence of block commands leaves (R193). -/
def chainAfter (op : Opcode) (blocks : List Block) (key iv : Block) : Block :=
  match blocks with
  | [] => iv
  | b :: rest => chainAfter op rest key (chainNext op (commandResult op b iv key) b iv)

/-- A run of one line per block reads the chained results, and IV ends as the chain value left. -/
theorem runBlocks_eq {op : CmdName} (hop : isBlockOp op.opcode = true) (blocks : List Block) {s : State}
    (h : Coherent s) (hb : s.busy = false) :
    ∃ t, runBlocks op blocks s = some (t, chainedResults op.opcode blocks s.key s.iv) ∧
      t.iv = chainAfter op.opcode blocks s.key s.iv ∧ t.key = s.key ∧ t.busy = false := by
  induction blocks generalizing s with
  | nil => exact ⟨s, rfl, rfl, rfl, hb⟩
  | cons b rest ih =>
    obtain ⟨t, reads, hline, ht, htb, hkey, hiv⟩ := runHostProgram_block hop h hb b
    obtain ⟨u, hrun, huiv, hukey, hub⟩ := ih ht htb
    rw [hkey, hiv] at hrun huiv
    refine ⟨u, ?_, huiv, hukey.trans hkey, hub⟩
    simp [runBlocks, hline, hrun, chainedResults]

end Sys2Proof.Machine

/-! PROOFS. The source's CBC sequence functions (spec/43_cbc.md R194, R195): they are the chained results of the CBC commands,
and their laws. -/

namespace Sys2Proof.Machine

theorem cbcEncrypt_cons (b : Block) (rest : List Block) (key iv : Block) :
    cbcEncrypt (b :: rest) key iv = encrypt (b ^^^ iv) key :: cbcEncrypt rest key (encrypt (b ^^^ iv) key) := rfl

theorem cbcDecrypt_cons (cipher : Block) (rest : List Block) (key iv : Block) :
    cbcDecrypt (cipher :: rest) key iv = (decrypt cipher key ^^^ iv) :: cbcDecrypt rest key cipher := rfl

theorem commandResult_cbcEnc (din iv key : Block) : commandResult opCbcEnc din iv key = encrypt (din ^^^ iv) key := rfl

theorem commandResult_cbcDec (din iv key : Block) : commandResult opCbcDec din iv key = decrypt din key ^^^ iv := rfl

theorem chainNext_cbcEnc (result cin iv : Block) : chainNext opCbcEnc result cin iv = result := rfl

theorem chainNext_cbcDec (result cin iv : Block) : chainNext opCbcDec result cin iv = cin := rfl

theorem chainedResults_cbcEnc (blocks : List Block) (key iv : Block) :
    chainedResults opCbcEnc blocks key iv = cbcEncrypt blocks key iv := by
  induction blocks generalizing iv with
  | nil => rfl
  | cons b rest ih => rw [chainedResults, cbcEncrypt_cons, commandResult_cbcEnc, chainNext_cbcEnc, ih]

theorem chainedResults_cbcDec (blocks : List Block) (key iv : Block) :
    chainedResults opCbcDec blocks key iv = cbcDecrypt blocks key iv := by
  induction blocks generalizing iv with
  | nil => rfl
  | cons b rest ih => rw [chainedResults, cbcDecrypt_cons, commandResult_cbcDec, chainNext_cbcDec, ih]

theorem chainAfter_cbcEnc (blocks : List Block) (key iv : Block) :
    chainAfter opCbcEnc blocks key iv = (cbcEncrypt blocks key iv).getLastD iv := by
  induction blocks generalizing iv with
  | nil => rfl
  | cons b rest ih => rw [chainAfter, cbcEncrypt_cons, List.getLastD_cons, commandResult_cbcEnc, chainNext_cbcEnc, ih]

theorem chainAfter_cbcDec (blocks : List Block) (key iv : Block) :
    chainAfter opCbcDec blocks key iv = blocks.getLastD iv := by
  induction blocks generalizing iv with
  | nil => rfl
  | cons b rest ih => rw [chainAfter, List.getLastD_cons, chainNext_cbcDec, ih]

/-- Settles O53: the engine's run reads the chained results, which for the CBC commands are the source's functions. -/
theorem cbcSequenceByCommands : Obligations.CbcSequenceByCommands := by
  intro blocks s h hb
  constructor
  · rw [← chainAfter_cbcEnc, ← chainedResults_cbcEnc]
    exact runBlocks_eq (op := .cbcEnc) rfl blocks h hb
  · rw [← chainAfter_cbcDec, ← chainedResults_cbcDec]
    exact runBlocks_eq (op := .cbcDec) rfl blocks h hb

@[simp] theorem length_cbcEncrypt (blocks : List Block) (key iv : Block) :
    (cbcEncrypt blocks key iv).length = blocks.length := by
  induction blocks generalizing iv with
  | nil => rfl
  | cons b rest ih => rw [cbcEncrypt_cons, List.length_cons, List.length_cons, ih]

@[simp] theorem length_cbcDecrypt (blocks : List Block) (key iv : Block) :
    (cbcDecrypt blocks key iv).length = blocks.length := by
  induction blocks generalizing iv with
  | nil => rfl
  | cons b rest ih => rw [cbcDecrypt_cons, List.length_cons, List.length_cons, ih]

/-- Each block is decrypted to the value that was encrypted, and the chain value xored in comes off again (R197). -/
theorem cbcDecrypt_cbcEncrypt (blocks : List Block) (key iv : Block) :
    cbcDecrypt (cbcEncrypt blocks key iv) key iv = blocks := by
  induction blocks generalizing iv with
  | nil => rfl
  | cons b rest ih => rw [cbcEncrypt_cons, cbcDecrypt_cons, decrypt_encrypt, xor_cancel_right, ih]

/-- Settles O49, by the round trip and the two lengths. -/
theorem cbcRoundTrip : Obligations.CbcRoundTrip := fun blocks key iv =>
  ⟨cbcDecrypt_cbcEncrypt blocks key iv, length_cbcEncrypt blocks key iv, length_cbcDecrypt blocks key iv, rfl, rfl⟩

/-- A sequence of commands is its first part and then the rest from the chain value the first part leaves (R201). -/
theorem chainedResults_append (op : Opcode) (first rest : List Block) (key iv : Block) :
    chainedResults op (first ++ rest) key iv =
      chainedResults op first key iv ++ chainedResults op rest key (chainAfter op first key iv) := by
  induction first generalizing iv with
  | nil => rfl
  | cons b first ih => rw [List.cons_append, chainedResults, ih, chainedResults, chainAfter, List.cons_append]

theorem cbcEncrypt_append (first rest : List Block) (key iv : Block) :
    cbcEncrypt (first ++ rest) key iv =
      cbcEncrypt first key iv ++ cbcEncrypt rest key ((cbcEncrypt first key iv).getLastD iv) := by
  rw [← chainAfter_cbcEnc, ← chainedResults_cbcEnc, chainedResults_append, chainedResults_cbcEnc,
    chainedResults_cbcEnc]

theorem cbcDecrypt_append (first rest : List Block) (key iv : Block) :
    cbcDecrypt (first ++ rest) key iv = cbcDecrypt first key iv ++ cbcDecrypt rest key (first.getLastD iv) := by
  rw [← chainedResults_cbcDec, chainedResults_append, chainAfter_cbcDec, chainedResults_cbcDec, chainedResults_cbcDec]

/-- Settles O50: both functions are chained results, which split at any block. -/
theorem cbcSaveAndResume : Obligations.CbcSaveAndResume := fun first rest key iv =>
  ⟨cbcEncrypt_append first rest key iv, cbcDecrypt_append first rest key iv⟩

/-- When the transform's inputs differ in the first block, every ciphertext block differs: encrypt is injective, so each chain
value differs, and with it the next input (R199). -/
theorem cbcEncrypt_getElem?_ne (rest : List Block) {x y key iv iv' : Block} (hne : x ^^^ iv ≠ y ^^^ iv') {j : Nat}
    (hj : j ≤ rest.length) : (cbcEncrypt (x :: rest) key iv)[j]? ≠ (cbcEncrypt (y :: rest) key iv')[j]? := by
  have hcipher : encrypt (x ^^^ iv) key ≠ encrypt (y ^^^ iv') key := (encrypt_injective key).ne hne
  induction j generalizing rest x y iv iv' with
  | zero => simpa [cbcEncrypt_cons] using hcipher
  | succ j ih =>
    cases rest with
    | nil => exact absurd hj (Nat.not_succ_le_zero j)
    | cons b rest =>
      have hnext : b ^^^ encrypt (x ^^^ iv) key ≠ b ^^^ encrypt (y ^^^ iv') key := by simpa using hcipher
      rw [cbcEncrypt_cons x, cbcEncrypt_cons y, List.getElem?_cons_succ, List.getElem?_cons_succ]
      exact ih rest hnext (Nat.le_of_succ_le_succ hj) ((encrypt_injective key).ne hnext)

/-- Settles O51: the sequences split before the block that differs; the first parts are one, and the rest starts from one chain
value with inputs that differ. -/
theorem cbcChainingDependency : Obligations.CbcChainingDependency := by
  intro before after x y key iv hxy
  rw [cbcEncrypt_append, cbcEncrypt_append]
  constructor
  · intro j hj
    have hlen : j < (cbcEncrypt before key iv).length := by simpa using hj
    rw [List.getElem?_append_left hlen, List.getElem?_append_left hlen]
  · intro j hle hlt
    have hlen : (cbcEncrypt before key iv).length ≤ j := by simpa using hle
    rw [List.getElem?_append_right hlen, List.getElem?_append_right hlen]
    refine cbcEncrypt_getElem?_ne after (by simpa using hxy) ?_
    rw [length_cbcEncrypt]
    omega

/-- Settles O52: at block 0 the chain value is the IV, and at block i + 1 of a sequence it is that of block i of its tail,
which starts from the block before. -/
theorem cbcDecryptionLocality : Obligations.CbcDecryptionLocality := by
  intro ciphers key iv i h
  induction ciphers generalizing iv i with
  | nil => exact absurd h (Nat.not_lt_zero i)
  | cons cipher rest ih =>
    cases i with
    | zero => rfl
    | succ i =>
      rw [cbcDecrypt_cons, List.getElem?_cons_succ, ih cipher i (Nat.lt_of_succ_lt_succ h)]
      cases i <;> rfl

end Sys2Proof.Machine

/-! PROOFS. One step, told from the port lines of the next cycle (spec/44_commands.md R212): an access is exec of the
instruction its word decodes to, and every cycle with rst = 0 is an edge with an access or without one. -/

namespace Sys2Proof.Machine

theorem step_of_inputs {s : State} {p : PortIn} {rest : List PortIn} (h : s.inputs = p :: rest) :
    step s = cycle p { s with inputs := rest } := by
  simp [step, nextPort, takePort, h]

theorem cycle_of_access {p : PortIn} {i : Instr} (hr : p.rst = false) (he : p.busEn = true)
    (hd : decode p.txWord = .ok i) (s : State) : cycle p s = exec i s := by
  simp [cycle, hr, he, hd]

theorem cycle_of_noAccess {p : PortIn} (hr : p.rst = false) (he : p.busEn = false) (s : State) :
    cycle p s = .next (idleCycle s) := by
  simp [cycle, hr, he]

/-- A valid word played at the port runs the instruction it decodes to (spec/30_encoding.md R91). -/
theorem cycle_play {w : TxWord} {i : Instr} (hd : decode w = .ok i) (s : State) :
    cycle (PortIn.play w) s = exec i s := by
  have hplay : PortIn.play w = PortIn.ofTxWord w := by simp [PortIn.play, hd]
  rw [hplay]
  exact cycle_of_access rfl rfl ((congrArg decode (portWord_ofTxWord hd)).trans hd) s

/-- Every cycle with rst = 0 is an edge of `edgeWith`. -/
theorem cycle_eq_edgeWith {p : PortIn} (hr : p.rst = false) (s : State) :
    ∃ access, cycle p s = edgeWith access s := by
  cases he : p.busEn with
  | false => exact ⟨none, cycle_of_noAccess hr he s⟩
  | true =>
    obtain ⟨i, hd⟩ : ∃ i, decode p.txWord = .ok i := by
      rw [decode_portWord]
      split
      · exact ⟨_, rfl⟩
      · exact ⟨_, rfl⟩
    exact ⟨some i, cycle_of_access hr he hd s⟩

/-- A row's word that decodes is the transaction word it is presented as. -/
theorem exists_tableTxWord_of_decode {nbits w : Nat} {i : Instr} (h : decodeTableWord nbits w = some i) :
    ∃ tx, tableTxWord nbits w = some tx ∧ decode tx = .ok i := by
  unfold decodeTableWord at h
  cases htx : tableTxWord nbits w with
  | none => simp [htx] at h
  | some tx =>
    cases hd : decode tx with
    | error why => simp [htx, hd, Except.toOption] at h
    | ok j => exact ⟨tx, rfl, by simpa [htx, hd, Except.toOption] using h⟩

/-- Settles O8: the port's word always spells the access, and a row's word is placed as the word it stands for. -/
theorem stepRunsTheDecodedInstruction : Obligations.StepRunsTheDecodedInstruction := by
  refine ⟨?_, ?_, ?_⟩
  · intro s p rest i hin hr he hd
    rw [step_of_inputs hin, cycle_of_access hr he hd]
  · intro s rest w i hin hd
    rw [step_of_inputs hin, cycle_play hd]
  · intro s nbits w i h
    obtain ⟨tx, htx, hd⟩ := exists_tableTxWord_of_decode h
    have hfetch : s.withFetchWord nbits w = placePort (PortIn.play tx) s := by simp [State.withFetchWord, htx]
    rw [hfetch, step_of_inputs (placePort_inputs _ s), cycle_play hd]
    rfl

/-- Settles O9. -/
theorem stepWithoutAccess : Obligations.StepWithoutAccess := by
  constructor
  · intro s p rest hin hr he
    rw [step_of_inputs hin, cycle_of_noAccess hr he]
  · intro s hin
    have hport : nextPort s = PortIn.quiet := by simp [nextPort, hin]
    have hdrop : s.inputs.drop 1 = s.inputs := by rw [hin]; rfl
    have htake : takePort s = s := by rw [takePort, hdrop]
    rw [step, hport, htake]
    exact cycle_of_noAccess rfl rfl s

end Sys2Proof.Machine

/-! PROOFS. The commands at the edge of their acceptance (spec/44_commands.md R214, R218), and the engine's own edge
(R212). -/

namespace Sys2Proof.Machine

/-- No edge of the engine clears RK_VALID (spec/10_state.md R30). -/
theorem engineEdge_rkValid {s : State} (hv : s.rkValid = true) : (engineEdge s).1.rkValid = true := by
  cases hp : s.phase with
  | idle => rw [engineEdge_idle hp]; exact hv
  | ks =>
    rw [engineEdge_ks hp]
    by_cases hc : s.cnt = 16#5
    · by_cases hop : s.opL = opKeysched
      · rw [ksEdge_completes hc hop]
      · rw [ksEdge_toRounds hc hop]
    · rw [ksEdge_early hc]; exact hv
  | rnd =>
    obtain ⟨-, -, -, hrk, -⟩ := rndEdge_datapath s
    rw [engineEdge_rnd hp, hrk]
    exact hv

/-- Settles O15: the frame of the engine's part, which the edge without an access only sets DONE over. -/
theorem engineEdgeFrame : Obligations.EngineEdgeFrame := by
  intro s
  obtain ⟨hkey, hdin, hdone, hcmd, hbusy, hirq, hsel, hop, hchain, hcin, -, hinputs, -⟩ := engineEdge_frame s
  rw [idleCycle, quietCycle, edge_eq]
  refine ⟨hkey, hdin, hcmd, hbusy, hirq, hsel, hop, hchain, hcin, hinputs, ?_, engineEdge_rkValid, rfl⟩
  intro h
  simp [hdone, h]

/-- Settles O26: NOP writes nothing at rest, and is dropped like any command while BUSY = 1. -/
theorem nopChangesNothing : Obligations.NopChangesNothing := by
  refine ⟨fun w h => (decodeCmd_of_op w).1 h, fun ign s => ⟨?_, ?_⟩⟩
  · intro hb
    rw [exec, execNop, writeCycle_idle hb]
    rfl
  · intro hb
    rw [exec, execNop, writeCycle_dropped hb]
    rfl

/-- The opcode by which a command is accepted at rest, for the five instructions that start one (R213). -/
def startedOp : Instr → Option Opcode
  | .ecbEnc _ => some opEcbEnc
  | .ecbDec _ => some opEcbDec
  | .cbcEnc _ => some opCbcEnc
  | .cbcDec _ => some opCbcDec
  | .keysched _ => some opKeysched
  | _ => none

theorem startedOp_legal {i : Instr} {op : Opcode} (h : startedOp i = some op) : op ≠ opNop ∧ op.toNat ≤ 5 := by
  cases i
  case ecbEnc | ecbDec | cbcEnc | cbcDec | keysched => cases h; decide
  all_goals cases h

/-- At rest a command is the acceptance of its opcode, whatever its ignored bits (R95, R213, R214). -/
theorem exec_of_startedOp {i : Instr} {op : Opcode} (h : startedOp i = some op) {s : State} (hb : s.busy = false) :
    exec i s = .next (driveRdata 0#64 (accept s op s)) := by
  rw [← writeCycle_idle hb]
  cases i
  case ecbEnc | ecbDec | cbcEnc | cbcDec | keysched => cases h; rfl
  all_goals cases h

/-- KEYSCHED, and any command with RK_VALID = 0, derives the round keys first (R214). -/
theorem accept_of_derives {s t : State} {op : Opcode} (h : op = opKeysched ∨ s.rkValid = false) :
    accept s op t = startDerivation s (latchOperands s op t) := if_pos h

theorem accept_of_keysReady {s t : State} {op : Opcode} (h : ¬(op = opKeysched ∨ s.rkValid = false)) :
    accept s op t = startRounds (latchOperands s op t) := if_neg h

theorem accept_busy (s : State) (op : Opcode) (t : State) : (accept s op t).busy = true := by
  unfold accept
  split <;> rfl

/-- Acceptance leaves DIN, DOUT, IV and the host's list alone (R214). -/
theorem accept_frame (s : State) (op : Opcode) (t : State) :
    (accept s op t).din = t.din ∧ (accept s op t).dout = t.dout ∧ (accept s op t).iv = t.iv ∧
    (accept s op t).inputs = t.inputs := by
  unfold accept
  split <;> exact ⟨rfl, rfl, rfl, rfl⟩

/-- Settles O27: acceptance latches the operands, and then starts the derivation or the rounds. -/
theorem acceptanceLatchesTheOperands : Obligations.AcceptanceLatchesTheOperands := by
  intro s ign i op hmem hb
  have hop : startedOp i = some op := by
    simp only [List.mem_cons, Prod.mk.injEq, List.not_mem_nil, or_false] at hmem
    rcases hmem with ⟨rfl, rfl⟩ | ⟨rfl, rfl⟩ | ⟨rfl, rfl⟩ | ⟨rfl, rfl⟩ | ⟨rfl, rfl⟩ <;> rfl
  refine ⟨_, exec_of_startedOp hop hb, accept_busy s op s, ?_⟩
  by_cases hderive : op = 0x5#4 ∨ s.rkValid = false
  · rw [accept_of_derives hderive, if_pos hderive]; rfl
  · rw [accept_of_keysReady hderive, if_neg hderive]; rfl

end Sys2Proof.Machine

/-! PROOFS. What RD answers (spec/44_commands.md R210), from the index of R92 to the value of each register. -/

namespace Sys2Proof.Machine

/-- The STATUS word as a number: bit 0 is BUSY, bit 4 ERR_BUSY (spec/10_state.md R26). -/
theorem statusWord_eq_ofNat (s : State) :
    statusWord s = BitVec.ofNat 64 (16 * s.errBusy.toNat + 8 * s.errCmd.toNat + 4 * s.rkValid.toNat +
      2 * s.done.toNat + s.busy.toNat) := by
  unfold statusWord
  generalize s.errBusy = errBusy, s.errCmd = errCmd, s.rkValid = rkValid, s.done = done, s.busy = busy
  revert errBusy errCmd rkValid done busy
  decide

/-- RK[sel + 1] stands at place `sel` of the store (spec/10_state.md R28, R30). -/
theorem rkRead_select (rk : RkStore) (sel : BitVec 4) :
    rkRead rk (sel.toNat + 1) = rk.toList.getD sel.toNat 0#48 := by
  have hlt : sel.toNat < 16 := sel.isLt
  simp [hlt, rkRead, rkPlace_of_range (r := sel.toNat + 1) (by omega) (by omega)]

theorem rkWindow_eq_ofNat (s : State) :
    rkWindow s = if s.rkValid = true then BitVec.ofNat 64 (s.rk.toList.getD s.rkSel.toNat 0#48).toNat else 0#64 := by
  rw [rkWindow, rkRead_select, BitVec.ofNat_toNat]

/-- R92's table, an index and its register in each row. -/
theorem ofIdx_of_mem_table : ∀ row ∈ [(0#3, Reg.key), (1#3, Reg.iv), (2#3, Reg.din), (3#3, Reg.dout), (4#3, Reg.cmd),
    (5#3, Reg.status), (6#3, Reg.ctrl), (7#3, Reg.rkdata)], Reg.ofIdx row.1 = row.2 := by decide

/-- Settles O13: the words by the decoder's rules for reads and writes, and the value register by register. -/
theorem readReturnsTheRegister : Obligations.ReadReturnsTheRegister := by
  refine ⟨?_, ?_, rfl⟩
  · intro idx reg hrow
    obtain rfl : Reg.ofIdx idx = reg := ofIdx_of_mem_table _ hrow
    exact ⟨rfl, Reg.idx_ofIdx idx, decode_read idx, decode_write idx⟩
  · intro reg s
    have drive {v w : Block} (h : v = w) : (.next (driveRdata v (idleCycle s)) : Result) =
        .next { idleCycle s with busRdata := w } := by rw [h]; rfl
    rw [exec_rd]
    cases reg with
    | key | iv | din | dout | cmd => rfl
    | status => exact drive (statusWord_eq_ofNat s)
    | ctrl => exact drive (selrkWord_eq s.rkSel s.irqEn)
    | rkdata => exact drive (rkWindow_eq_ofNat s)

end Sys2Proof.Machine

/-! PROOFS. A command in flight: what one edge with rst = 0 does to it whatever the host's access (spec/44_commands.md R215),
and the run from acceptance to completion (R217). -/

namespace Sys2Proof.Machine

theorem Coherent.edgeWith {s t : State} (h : Coherent s) {access : Option Instr}
    (he : edgeWith access s = .next t) : Coherent t := by
  obtain ⟨rdata, write, hw, he'⟩ := edgeWith_cases access s
  obtain rfl := Host.Outcome.next.inj (he'.symm.trans he)
  exact (h.edge hw).driveRdata rdata

/-- The edge that completes a command leaves RK_VALID = 1 (R216). -/
theorem Coherent.rkValid_of_completes {s : State} (h : Coherent s) (hcomp : (Machine.engineEdge s).2 = true) :
    (Machine.engineEdge s).1.rkValid = true := by
  cases hp : s.phase with
  | idle => simp [engineEdge_idle hp] at hcomp
  | ks =>
    rw [engineEdge_ks hp] at hcomp ⊢
    by_cases hc : s.cnt = 16#5
    · by_cases hop : s.opL = opKeysched
      · rw [ksEdge_completes hc hop]
      · simp [ksEdge_toRounds hc hop] at hcomp
    · simp [ksEdge_early hc] at hcomp
  | rnd => exact engineEdge_rkValid (h.running_rounds hp).rk_valid

/-- The engine writes DOUT and IV only as it clears BUSY. -/
theorem engineEdge_dout_iv_of_busy {s : State} (hb : (engineEdge s).1.busy = true) :
    (engineEdge s).1.dout = s.dout ∧ (engineEdge s).1.iv = s.iv := by
  refine engineEdge_dout_iv ?_
  rintro ⟨hp, hc⟩
  simp [engineEdge_rnd hp, rndEdge_completes hc] at hb

/-- `t` comes `k` edges with rst = 0 after `s`, whose command may be in flight: they are `k` of the edges the command has
left, and keep what it will deliver and DIN; DOUT and IV hold while BUSY = 1, and BUSY = 0 comes with DONE = 1. -/
structure FlightRun (k : Nat) (s t : State) : Prop where
  coherent : Coherent t
  counts : edgesLeft t + k = edgesLeft s
  delivers : onceDone t = onceDone s
  din : t.din = s.din
  held : t.busy = true → t.dout = s.dout ∧ t.iv = s.iv
  ended : t.busy = false → t.done = true ∧ t.rkValid = true

theorem Coherent.busy_of_edgesLeft_ne_zero {s : State} (h : Coherent s) (hn : edgesLeft s ≠ 0) : s.busy = true := by
  rwa [ne_eq, edgesLeft_eq_zero_iff h, Bool.not_eq_false] at hn

namespace FlightRun

variable {k : Nat} {s t u : State}

theorem busy (h : FlightRun k s t) (hk : k < edgesLeft s) : t.busy = true := by
  have hcounts := h.counts
  exact h.coherent.busy_of_edgesLeft_ne_zero (by omega)

theorem rest (h : FlightRun k s t) (hk : edgesLeft s = k) : t.busy = false := by
  have hcounts := h.counts
  exact (edgesLeft_eq_zero_iff h.coherent).mp (by omega)

theorem refl (h : Coherent s) (hend : s.busy = false → s.done = true ∧ s.rkValid = true) : FlightRun 0 s s :=
  ⟨h, rfl, rfl, rfl, fun _ => ⟨rfl, rfl⟩, hend⟩

/-- An edge and then `k` more. BUSY = 1 at the end means BUSY = 1 between, so DOUT and IV hold over both parts. -/
theorem cons (h : FlightRun 1 s t) (h' : FlightRun k t u) : FlightRun (k + 1) s u where
  coherent := h'.coherent
  counts := by have h1 := h.counts; have h2 := h'.counts; omega
  delivers := h'.delivers.trans h.delivers
  din := h'.din.trans h.din
  held hub := by
    have hu : edgesLeft u ≠ 0 := by simp [edgesLeft_eq_zero_iff h'.coherent, hub]
    have ht : edgesLeft t ≠ 0 := by rw [← h'.counts]; omega
    obtain ⟨hdout, hiv⟩ := h.held (h.coherent.busy_of_edgesLeft_ne_zero ht)
    obtain ⟨hdout', hiv'⟩ := h'.held hub
    exact ⟨hdout'.trans hdout, hiv'.trans hiv⟩
  ended := h'.ended

end FlightRun

/-- While BUSY = 1 every edge with rst = 0 is such an edge, whatever access the host makes in it. -/
theorem edgeWith_flightRun (access : Option Instr) {s : State} (h : Coherent s) (hb : s.busy = true) :
    ∃ t, edgeWith access s = .next t ∧ FlightRun 1 s t ∧ t.inputs = s.inputs := by
  obtain ⟨u, he, hset, -⟩ := edgeWith_of_busy access hb
  obtain ⟨-, hdin, -, -, -, -, -, -, -, -, -, hinputs, -⟩ := engineEdge_frame s
  refine ⟨_, he, ⟨h.edgeWith he, ?_, onceDone_engineEdge h, hdin, engineEdge_dout_iv_of_busy, ?_⟩, hinputs⟩
  · have hleft : edgesLeft (withAccessFields u (engineEdge s).1) = edgesLeft (engineEdge s).1 :=
      edgesLeft_congr rfl rfl rfl
    rw [hleft, edgesLeft_engineEdge h hb]
  · intro hidle
    have hcomp := (engineEdge_completes_iff s).mpr ⟨hb, hidle⟩
    exact ⟨hset hcomp, h.rkValid_of_completes hcomp⟩

/-- Settles O30. -/
theorem commandInFlight : Obligations.CommandInFlight := by
  intro access s h hb
  obtain ⟨t, he, hedge, -⟩ := edgeWith_flightRun access h hb
  refine ⟨t, he, (congrArg State.key hedge.delivers :), hedge.din, ?_, hedge.ended, ?_⟩
  · intro htb
    obtain ⟨hdout, hiv⟩ := hedge.held htb
    exact ⟨hdout, hiv, (hedge.coherent.inFlight htb).done_clear⟩
  · intro hp
    simp [readReg, rkWindow, (h.deriving_keys hp).rk_masked]

/-! Steps without a reset. -/

theorem noResetFor_succ_iff (n : Nat) (s : State) :
    noResetFor (n + 1) s ↔ (nextPort s).rst = false ∧ noResetFor n (takePort s) := by
  unfold noResetFor nextPort
  rw [takePort_inputs]
  cases s.inputs with
  | nil => simp [PortIn.quiet]
  | cons p rest => simp

theorem noResetFor.mono {k n : Nat} {s : State} (h : noResetFor n s) (hk : k ≤ n) : noResetFor k s :=
  fun p hp => h p (List.take_subset_take_left s.inputs hk hp)

theorem noResetFor_congr {s t : State} (hin : t.inputs = s.inputs) {n : Nat} (h : noResetFor n s) : noResetFor n t := by
  rw [noResetFor, hin]
  exact h

theorem core_run_succ {M : Host.Core} {s t : M.State} (h : M.step s = .next t) (n : Nat) :
    M.run (n + 1) s = M.run n t := by
  simp only [Host.Core.run, h]

theorem runFor_succ {s t : State} (h : step s = .next t) (n : Nat) : runFor (n + 1) s = runFor n t :=
  core_run_succ (M := Sys2Proof.core) h n

/-- A step without a reset is an edge of the command in flight. -/
theorem step_flightRun {n : Nat} {s : State} (h : Coherent s) (hb : s.busy = true) (hr : noResetFor (n + 1) s) :
    ∃ t, step s = .next t ∧ FlightRun 1 s t ∧ noResetFor n t := by
  obtain ⟨hrst, hlater⟩ := (noResetFor_succ_iff n s).mp hr
  obtain ⟨access, hcycle⟩ := cycle_eq_edgeWith hrst (takePort s)
  obtain ⟨t, he, hedge, hinputs⟩ := edgeWith_flightRun access h.takePort hb
  exact ⟨t, hcycle.trans he, ⟨hedge.coherent, hedge.counts, hedge.delivers, hedge.din, hedge.held, hedge.ended⟩,
    noResetFor_congr hinputs hlater⟩

/-- The run of a command, for as many steps as it has edges left. -/
theorem runFor_flightRun (k : Nat) {s : State} (h : Coherent s) (hk : k ≤ edgesLeft s) (hr : noResetFor k s)
    (hend : s.busy = false → s.done = true ∧ s.rkValid = true) :
    ∃ t, runFor k s = .next t ∧ FlightRun k s t := by
  induction k generalizing s with
  | zero => exact ⟨s, rfl, .refl h hend⟩
  | succ k ih =>
    have hb : s.busy = true := h.busy_of_edgesLeft_ne_zero (by omega)
    obtain ⟨s', hstep, hedge, hr'⟩ := step_flightRun h hb hr
    have hcounts := hedge.counts
    obtain ⟨t, hrun, hrest⟩ := ih hedge.coherent (by omega) hr' hedge.ended
    exact ⟨t, (runFor_succ hstep k).trans hrun, hedge.cons hrest⟩

/-! The five commands. -/

/-- `onceDone_accept` for every opcode: one that is no block command leaves DOUT (R216). -/
theorem onceDone_accept_eq (s : State) (op : Opcode) :
    onceDone (accept s op s) =
      { State.reset with
        key := s.key
        dout := if isBlockOp op then commandResult op s.din s.iv s.key else s.dout
        iv := chainNext op (commandResult op s.din s.iv s.key) s.din s.iv } := by
  unfold accept
  split <;> simp [onceDone, latchOperands]

/-- R290's N for a block command. -/
theorem latency_of_isBlockOp {op : Opcode} (hop : isBlockOp op = true) (rkValid : Bool) :
    latency op rkValid = if rkValid then 16 else 32 := by
  revert hop rkValid
  revert op
  decide

theorem latency_keysched (rkValid : Bool) : latency opKeysched rkValid = 16 := by
  revert rkValid
  decide

/-- The run of a command from its acceptance: any of the N steps of R290, whatever the host's accesses in them. -/
theorem runFor_accept {s : State} (h : Coherent s) {op : Opcode} (h0 : op ≠ opNop) (h5 : op.toNat ≤ 5) {k : Nat}
    (hk : k ≤ latency op s.rkValid) (hr : noResetFor k s) :
    ∃ t, runFor k (driveRdata 0#64 (accept s op s)) = .next t ∧ FlightRun k (driveRdata 0#64 (accept s op s)) t := by
  have hleft : edgesLeft (driveRdata 0#64 (accept s op s)) = latency op s.rkValid := edgesLeft_accept s h0 h5
  obtain ⟨-, -, -, hinputs⟩ := accept_frame s op s
  exact runFor_flightRun k ((h.accept h0 h5).driveRdata 0#64) (hleft ▸ hk) (noResetFor_congr hinputs hr)
    (by simp [accept_busy])

/-- Settles O34: acceptance leaves the N edges of R290 to run and settles what the command delivers, which its edges keep. -/
theorem commandContract : Obligations.CommandContract := by
  intro s ign i n dout iv hmem h hb hr
  obtain ⟨op, hop, hn, hdout, hiv⟩ : ∃ op, startedOp i = some op ∧ latency op s.rkValid = n ∧
      (if isBlockOp op then commandResult op s.din s.iv s.key else s.dout) = dout ∧
      chainNext op (commandResult op s.din s.iv s.key) s.din s.iv = iv := by
    simp only [List.mem_cons, Prod.mk.injEq, List.not_mem_nil, or_false] at hmem
    rcases hmem with ⟨rfl, rfl, rfl, rfl⟩ | ⟨rfl, rfl, rfl, rfl⟩ | ⟨rfl, rfl, rfl, rfl⟩ | ⟨rfl, rfl, rfl, rfl⟩ |
      ⟨rfl, rfl, rfl, rfl⟩
    · exact ⟨opEcbEnc, rfl, latency_of_isBlockOp rfl _, rfl, rfl⟩
    · exact ⟨opEcbDec, rfl, latency_of_isBlockOp rfl _, rfl, rfl⟩
    · exact ⟨opCbcEnc, rfl, latency_of_isBlockOp rfl _, rfl, rfl⟩
    · exact ⟨opCbcDec, rfl, latency_of_isBlockOp rfl _, rfl, rfl⟩
    · exact ⟨opKeysched, rfl, latency_keysched _, rfl, rfl⟩
  obtain ⟨h0, h5⟩ := startedOp_legal hop
  have hleft : edgesLeft (driveRdata 0#64 (accept s op s)) = n := (edgesLeft_accept s h0 h5).trans hn
  obtain ⟨hadin, hadout, haiv, -⟩ := accept_frame s op s
  obtain ⟨t, hrun, ht⟩ := runFor_accept h h0 h5 hn.ge hr
  have htb := ht.rest hleft
  obtain ⟨hdone, hvalid⟩ := ht.ended htb
  have hdelivers : onceDone t = onceDone (accept s op s) := ht.delivers
  rw [onceDone_rest htb, onceDone_accept_eq, hdout, hiv] at hdelivers
  have hkey : t.key = s.key := (congrArg State.key hdelivers :)
  refine ⟨_, t, exec_of_startedOp hop hb, hrun, ?_, htb, hdone, hvalid, hkey ▸ ht.coherent.store hvalid,
    (congrArg State.dout hdelivers :), (congrArg State.iv hdelivers :), hkey, ht.din.trans hadin⟩
  intro k hk
  obtain ⟨u, hu, hflown⟩ := runFor_accept h h0 h5 (hn ▸ hk.le) (hr.mono hk.le)
  have hub := hflown.busy (hleft.symm ▸ hk)
  obtain ⟨hud, hui⟩ := hflown.held hub
  exact ⟨u, hu, hub, hud.trans hadout, hui.trans haiv⟩

end Sys2Proof.Machine

/-! PROOFS. Errors and the interrupt (spec/60_exceptions.md): what a cycle does to ERR_CMD, ERR_BUSY and irq, told of four kinds
of cycle: no write, a STATUS write, a CTRL write, and a write that BUSY = 1 drops, the command words among them. -/

namespace Sys2Proof.Machine

/-! The flags in the STATUS word (spec/10_state.md R26). -/

theorem statusWord_errorBits (s : State) :
    (statusWord s).getLsbD 3 = s.errCmd ∧ (statusWord s).getLsbD 4 = s.errBusy := by
  rw [statusWord_eq_ofNat]
  generalize s.errBusy = errBusy, s.errCmd = errCmd, s.rkValid = rkValid, s.done = done, s.busy = busy
  revert errBusy errCmd rkValid done busy
  decide

/-! The cycle without a write. -/

/-- Settles O14: at rest an edge is the host's write alone, and here there is none. -/
theorem quietEdgeKeepsEverything : Obligations.QuietEdgeKeepsEverything := fun _ hb => idleCycle_idle hb

@[simp] theorem idleCycle_errCmd (s : State) : (idleCycle s).errCmd = s.errCmd := by
  obtain ⟨-, -, hcmd, -⟩ := engineEdgeFrame s
  exact hcmd

@[simp] theorem idleCycle_errBusy (s : State) : (idleCycle s).errBusy = s.errBusy := by
  obtain ⟨-, -, -, hbusy, -⟩ := engineEdgeFrame s
  exact hbusy

@[simp] theorem idleCycle_irqEn (s : State) : (idleCycle s).irqEn = s.irqEn := by
  obtain ⟨-, -, -, -, hirq, -⟩ := engineEdgeFrame s
  exact hirq

theorem idleCycle_done {s : State} (h : s.done = true) : (idleCycle s).done = true := by
  obtain ⟨-, -, -, -, -, -, -, -, -, -, hdone, -⟩ := engineEdgeFrame s
  exact hdone h

/-! A write that BUSY = 1 drops (R251). -/

theorem writeCycle_unlessBusy_errCmd (s : State) (write : State → State) :
    (writeCycle s (unlessBusy s write)).errCmd = if s.busy then s.errCmd else (write s).errCmd := by
  cases hb : s.busy with
  | true => rw [writeCycle_dropped hb]; exact idleCycle_errCmd s
  | false => rw [writeCycle_idle hb]; rfl

/-- Where the write itself leaves ERR_BUSY alone, the drop is what sets it. -/
theorem writeCycle_unlessBusy_errBusy {s : State} {write : State → State} (hw : (write s).errBusy = s.errBusy) :
    (writeCycle s (unlessBusy s write)).errBusy = (s.errBusy || s.busy) := by
  cases hb : s.busy with
  | true => rw [writeCycle_dropped hb]; simp
  | false => rw [writeCycle_idle hb]; simp [hw]

/-! The command words: each is a write to CMD, told by OP (R90, R213). -/

theorem exec_of_data_eq {i : Instr} {op : Opcode} {ign : Ignored} (hi : i.isCommand = true)
    (hdata : i.data = cmdWord op ign) (s : State) :
    exec i s = .next (writeCycle s (unlessBusy s (cmdWrite s op))) := by
  rw [← decodeCmd_data hi, hdata, exec_decodeCmd, exec_wr, writeReg, cmdOp_cmdWord]

theorem toNat_cmdOp (w : Block) : (cmdOp w).toNat = w.toNat % 16 := by
  simp [cmdOp, BitVec.extractLsb'_toNat]

theorem reservedLow_ge (op0 : BitVec 1) : 6 ≤ (0b011#3 ++ op0).toNat := by
  revert op0; decide

theorem reservedHigh_ge (op20 : BitVec 3) : 6 ≤ (0b1#1 ++ op20).toNat := by
  rw [toNat_reservedHigh]; omega

/-- Acceptance leaves the error flags and IRQ_EN alone, and clears DONE (R214, R257). -/
theorem accept_flags (s : State) (op : Opcode) (t : State) :
    (accept s op t).errCmd = t.errCmd ∧ (accept s op t).errBusy = t.errBusy ∧ (accept s op t).irqEn = t.irqEn ∧
    (accept s op t).done = false := by
  unfold accept
  split <;> exact ⟨rfl, rfl, rfl, rfl⟩

/-- What a command word does at rest, by the three ranges of R213. -/
theorem cmdWrite_cases (s : State) (op : Opcode) :
    (op.toNat = 0 ∧ cmdWrite s op = id) ∨ (1 ≤ op.toNat ∧ op.toNat ≤ 5 ∧ cmdWrite s op = accept s op) ∨
    (6 ≤ op.toNat ∧ cmdWrite s op = raiseErrCmd) := by
  by_cases h6 : 6 ≤ op.toNat
  · exact .inr (.inr ⟨h6, cmdWrite_reserved s h6⟩)
  · by_cases h0 : op = opNop
    · exact .inl ⟨by rw [h0]; rfl, by rw [h0, cmdWrite_nop]⟩
    · have hpos : op.toNat ≠ 0 := fun h => h0 (BitVec.eq_of_toNat_eq h)
      exact .inr (.inl ⟨by omega, by omega, cmdWrite_legal s h0 (by omega)⟩)

theorem cmdWrite_errCmd (s : State) (op : Opcode) (t : State) :
    (cmdWrite s op t).errCmd = (t.errCmd || decide (6 ≤ op.toNat)) := by
  obtain ⟨haccept, -⟩ := accept_flags s op t
  rcases cmdWrite_cases s op with ⟨h0, hw⟩ | ⟨-, h5, hw⟩ | ⟨h6, hw⟩
  · simp [hw, h0]
  · have hn : ¬6 ≤ op.toNat := by omega
    simp [hw, haccept, hn]
  · simp [hw, h6]

theorem cmdWrite_errBusy (s : State) (op : Opcode) (t : State) : (cmdWrite s op t).errBusy = t.errBusy := by
  obtain ⟨-, haccept, -⟩ := accept_flags s op t
  rcases cmdWrite_cases s op with ⟨-, hw⟩ | ⟨-, -, hw⟩ | ⟨-, hw⟩
  · rw [hw]; rfl
  · rw [hw, haccept]
  · rw [hw]; rfl

theorem commandCycle_errCmd (s : State) (op : Opcode) :
    (writeCycle s (unlessBusy s (cmdWrite s op))).errCmd = (s.errCmd || (!s.busy && decide (6 ≤ op.toNat))) := by
  rw [writeCycle_unlessBusy_errCmd, cmdWrite_errCmd]
  cases s.busy <;> simp

theorem commandCycle_errCmd_of_defined (s : State) {op : Opcode} (h : op.toNat < 6) :
    (writeCycle s (unlessBusy s (cmdWrite s op))).errCmd = s.errCmd := by
  simp [commandCycle_errCmd, Nat.not_le.mpr h]

theorem commandCycle_errCmd_of_reserved (s : State) {op : Opcode} (h : 6 ≤ op.toNat) :
    (writeCycle s (unlessBusy s (cmdWrite s op))).errCmd = (s.errCmd || !s.busy) := by
  simp [commandCycle_errCmd, h]

theorem commandCycle_errBusy (s : State) (op : Opcode) :
    (writeCycle s (unlessBusy s (cmdWrite s op))).errBusy = (s.errBusy || s.busy) :=
  writeCycle_unlessBusy_errBusy (cmdWrite_errBusy s op s)

/-- Settles O24: a cycle without a write leaves both flags, a STATUS write clears them bit by bit, and a write that BUSY = 1
drops sets ERR_BUSY; only a reserved opcode sets ERR_CMD, and only at rest. -/
theorem errorFlagsChangeOnlyByTheirCauses : Obligations.ErrorFlagsChangeOnlyByTheirCauses := by
  intro i s
  cases i with
  | rd reg => exact ⟨_, exec_rd reg s, idleCycle_errCmd s, idleCycle_errBusy s⟩
  | wr reg v =>
    cases reg with
    | key | iv | din =>
      exact ⟨_, exec_wr _ v s, (writeCycle_unlessBusy_errCmd s _).trans (ite_self _), writeCycle_unlessBusy_errBusy rfl⟩
    | dout | rkdata => exact ⟨_, exec_wr _ v s, idleCycle_errCmd s, idleCycle_errBusy s⟩
    | cmd =>
      have hcmd := commandCycle_errCmd s (cmdOp v)
      rw [toNat_cmdOp] at hcmd
      exact ⟨_, exec_wr .cmd v s, hcmd, commandCycle_errBusy s _⟩
    | status => exact ⟨_, statusWriteOneToClear s v, rfl, rfl⟩
    | ctrl =>
      obtain ⟨_, he, rfl, -⟩ := ctrlWrite s v
      exact ⟨_, he, idleCycle_errCmd s, idleCycle_errBusy s⟩
  | nop | ecbEnc | ecbDec | cbcEnc | cbcDec | keysched =>
    exact ⟨_, exec_of_data_eq rfl rfl s, commandCycle_errCmd_of_defined s (by decide), commandCycle_errBusy s _⟩
  | reservedLow op0 =>
    exact ⟨_, exec_of_data_eq rfl rfl s, commandCycle_errCmd_of_reserved s (reservedLow_ge op0), commandCycle_errBusy s _⟩
  | reservedHigh op20 =>
    exact ⟨_, exec_of_data_eq rfl rfl s, commandCycle_errCmd_of_reserved s (reservedHigh_ge op20), commandCycle_errBusy s _⟩

/-- Settles O22: each of these writes is judged by BUSY and so dropped; the other registers raise no ERR_BUSY, by O24. -/
theorem writeWhileBusyIsDropped : Obligations.WriteWhileBusyIsDropped := by
  constructor
  · intro s i hb hi
    obtain ⟨write, hw⟩ : ∃ write, exec i s = .next (writeCycle s (unlessBusy s write)) := by
      cases i
      case rd => exact hi.elim
      case wr => rcases hi with rfl | rfl | rfl | rfl <;> exact ⟨_, rfl⟩
      all_goals exact ⟨_, rfl⟩
    rw [writeCycle_dropped hb] at hw
    exact ⟨_, hw, rfl, (statusWord_errorBits _).2⟩
  · intro s reg v hreg
    obtain ⟨t, he, -, hbusy⟩ := errorFlagsChangeOnlyByTheirCauses (.wr reg v) s
    refine ⟨t, he, fun h => ?_⟩
    rw [hbusy] at h
    rcases hreg with rfl | rfl | rfl | rfl
    · exact (Bool.and_eq_true_iff.mp h).1
    all_goals exact h

/-- Settles O23: at rest the write of a reserved opcode is the whole edge, and raises ERR_CMD. -/
theorem reservedOpcodeSetsErrCmd : Obligations.ReservedOpcodeSetsErrCmd := by
  intro s op0 op20 ign w hb h6
  have hrest : writeCycle s (unlessBusy s raiseErrCmd) = { s with errCmd := true, busRdata := 0#64 } :=
    writeCycle_idle hb raiseErrCmd
  refine ⟨congrArg _ hrest, congrArg _ hrest, ?_, (statusWord_errorBits _).1⟩
  rw [exec_wr, writeReg, cmdWrite_reserved s (toNat_cmdOp w ▸ h6), hrest]

/-! The interrupt (R256, R257). -/

theorem irq_eq_true_iff (s : State) :
    s.irq = true ↔ s.irqEn = true ∧ (s.done = true ∨ s.errCmd = true ∨ s.errBusy = true) := by
  simp [State.irq, or_assoc]

/-- The engine's own edge clears none of the flags of irq. -/
theorem irq_idleCycle {s : State} (h : s.irq = true) : (idleCycle s).irq = true := by
  obtain ⟨hen, hflag⟩ := (irq_eq_true_iff s).mp h
  rw [irq_eq_true_iff, idleCycle_irqEn, idleCycle_errCmd, idleCycle_errBusy]
  exact ⟨hen, hflag.imp_left idleCycle_done⟩

/-- A dropped write holds irq by its own ERR_BUSY. -/
theorem irq_writeCycle_unlessBusy_iff {s : State} (h : s.irq = true) (write : State → State) :
    (writeCycle s (unlessBusy s write)).irq = true ↔ s.busy = true ∨ (write s).irq = true := by
  obtain ⟨hen, -⟩ := (irq_eq_true_iff s).mp h
  cases hb : s.busy with
  | true => rw [writeCycle_dropped hb, irq_eq_true_iff]; simp [hen]
  | false => rw [writeCycle_idle hb, or_iff_right (by decide)]; rfl

/-- At rest an accepted command leaves irq to the error flags, since it clears DONE; NOP and a reserved opcode leave it 1. -/
theorem irq_cmdWrite_iff {s : State} (h : s.irq = true) (op : Opcode) :
    (cmdWrite s op s).irq = true ↔
      op.toNat = 0 ∨ 6 ≤ op.toNat ∨ s.errCmd = true ∨ s.errBusy = true := by
  obtain ⟨hen, -⟩ := (irq_eq_true_iff s).mp h
  obtain ⟨hcmd, hbusy, hirq, hdone⟩ := accept_flags s op s
  rcases cmdWrite_cases s op with ⟨h0, hw⟩ | ⟨h1, h5, hw⟩ | ⟨h6, hw⟩
  · simp [hw, h0, h]
  · have h0 : op.toNat ≠ 0 := by omega
    have h6 : ¬6 ≤ op.toNat := by omega
    rw [hw, irq_eq_true_iff, hcmd, hbusy, hirq, hdone]
    simp [hen, h0, h6]
  · rw [hw, irq_eq_true_iff]
    simp [hen, h6]

theorem irq_commandCycle_iff {s : State} (h : s.irq = true) (op : Opcode) :
    (writeCycle s (unlessBusy s (cmdWrite s op))).irq = true ↔
      s.busy = true ∨ op.toNat = 0 ∨ 6 ≤ op.toNat ∨ s.errCmd = true ∨ s.errBusy = true := by
  rw [irq_writeCycle_unlessBusy_iff h, irq_cmdWrite_iff h]

/-- An accepted command lowers irq at rest unless an error flag holds it (R257). -/
theorem irq_commandCycle_iff_of_accepted {s : State} (h : s.irq = true) {op : Opcode} (h0 : op.toNat ≠ 0)
    (h5 : op.toNat ≤ 5) :
    (writeCycle s (unlessBusy s (cmdWrite s op))).irq = true ↔
      s.busy = true ∨ s.errCmd = true ∨ s.errBusy = true := by
  have h6 : ¬6 ≤ op.toNat := by omega
  rw [irq_commandCycle_iff h, or_iff_right h0, or_iff_right h6]

theorem irq_commandCycle_of_notAccepted {s : State} (h : s.irq = true) {op : Opcode}
    (hop : op.toNat = 0 ∨ 6 ≤ op.toNat) : (writeCycle s (unlessBusy s (cmdWrite s op))).irq = true := by
  rw [irq_commandCycle_iff h, ← or_assoc (a := op.toNat = 0)]
  exact .inr (.inl hop)

/-- Settles O25, by the same kinds of cycle as O24. -/
theorem irqHeldUntilCleared : Obligations.IrqHeldUntilCleared := by
  refine ⟨irq_eq_true_iff, fun _ => irq_idleCycle, ?_⟩
  intro i s h
  obtain ⟨hen, -⟩ := (irq_eq_true_iff s).mp h
  cases i with
  | rd reg => exact ⟨_, exec_rd reg s, iff_of_true (irq_idleCycle h) trivial⟩
  | wr reg v =>
    cases reg with
    | key | iv | din =>
      exact ⟨_, exec_wr _ v s, iff_of_true ((irq_writeCycle_unlessBusy_iff h _).mpr (.inr h)) trivial⟩
    | dout | rkdata => exact ⟨_, exec_wr _ v s, iff_of_true (irq_idleCycle h) trivial⟩
    | cmd =>
      have hirq := irq_commandCycle_iff h (cmdOp v)
      rw [toNat_cmdOp] at hirq
      exact ⟨_, exec_wr .cmd v s, hirq⟩
    | status =>
      refine ⟨_, statusWriteOneToClear s v, ?_⟩
      simp only [irq_eq_true_iff, idleCycle_irqEn, hen, true_and, Bool.or_eq_true, Bool.and_eq_true, Bool.not_eq_true']
      tauto
    | ctrl =>
      obtain ⟨_, he, rfl, -⟩ := ctrlWrite s v
      obtain ⟨-, hflag'⟩ := (irq_eq_true_iff _).mp (irq_idleCycle h)
      exact ⟨_, he, (irq_eq_true_iff _).trans (and_iff_left hflag')⟩
  | ecbEnc | ecbDec | cbcEnc | cbcDec | keysched =>
    exact ⟨_, exec_of_data_eq rfl rfl s, irq_commandCycle_iff_of_accepted h (by decide) (by decide)⟩
  | nop => exact ⟨_, exec_of_data_eq rfl rfl s, iff_of_true (irq_commandCycle_of_notAccepted h (.inl rfl)) trivial⟩
  | reservedLow op0 =>
    have hirq := irq_commandCycle_of_notAccepted h (.inr (reservedLow_ge op0))
    exact ⟨_, exec_of_data_eq rfl rfl s, iff_of_true hirq trivial⟩
  | reservedHigh op20 =>
    have hirq := irq_commandCycle_of_notAccepted h (.inr (reservedHigh_ge op20))
    exact ⟨_, exec_of_data_eq rfl rfl s, iff_of_true hirq trivial⟩

end Sys2Proof.Machine

/-! PROOFS. An edge with rst = 1 (spec/70_reset_and_hazards.md R280). -/

namespace Sys2Proof.Machine

theorem cycle_of_reset {p : PortIn} (hr : p.rst = true) (s : State) : cycle p s = .next (resetCycle p s) := if_pos hr

/-- No register a read can return depends on the host's list. -/
theorem portRdata_inputs (p : PortIn) (s : State) (rest : List PortIn) :
    portRdata p { s with inputs := rest } = portRdata p s := rfl

theorem portRdata_eq_ite (p : PortIn) (s : State) :
    portRdata p s = if p.busEn = true ∧ p.busWe = false then readReg s (Reg.ofIdx p.busIdx) else 0#64 := by
  simp [portRdata]

/-- Settles O12: a reset edge takes nothing of the state before it but the read, and nothing of the cycle's write. -/
theorem resetEdgeOverridesEverything : Obligations.ResetEdgeOverridesEverything := by
  intro s p rest hin hr
  have hstep : step s = .next (resetCycle p { s with inputs := rest }) := by
    rw [step_of_inputs hin, cycle_of_reset hr]
  have hread := (portRdata_inputs p s rest).trans (portRdata_eq_ite p s)
  exact ⟨_, hstep, rfl, rfl, rfl, rfl, rfl, rfl, rfl, rfl, rfl, rfl, rfl, rfl, rfl, rfl, rfl, rfl, rfl, rfl, rfl, rfl,
    hread⟩

end Sys2Proof.Machine

/-! PROOFS. The latency table (spec/70_reset_and_hazards.md R290): its rows, and BUSY after a CMD write at rest. -/

namespace Sys2Proof.Machine

/-! The rows of the table. -/

theorem ksEdges_of_isBlockOp {op : Opcode} (hop : isBlockOp op = true) (rkValid : Bool) :
    ksEdges op rkValid = if rkValid then 0 else 16 := by
  have hks : op ≠ opKeysched := by rintro rfl; exact absurd hop (by decide)
  cases rkValid <;> simp [ksEdges, hks, hop, Config.latKs]

theorem rndEdges_of_isBlockOp {op : Opcode} (hop : isBlockOp op = true) : rndEdges op = 16 := if_pos hop

theorem edges_of_notAccepted {op : Opcode} (hop : op.toNat = 0 ∨ 6 ≤ op.toNat) (rkValid : Bool) :
    ksEdges op rkValid = 0 ∧ rndEdges op = 0 := by
  have hblock : isBlockOp op = false := by
    rw [← Bool.not_eq_true, isBlockOp_iff_range]
    omega
  have hks : op ≠ opKeysched := by rintro rfl; exact absurd hop (by decide)
  simp [ksEdges, rndEdges, hks, hblock]

theorem latency_of_notAccepted {op : Opcode} (hop : op.toNat = 0 ∨ 6 ≤ op.toNat) (rkValid : Bool) :
    latency op rkValid = 0 := by
  obtain ⟨hks, hrnd⟩ := edges_of_notAccepted hop rkValid
  rw [latency, hks, hrnd]

/-! BUSY over the cycles after a CMD write. -/

/-- In the run from `t`, BUSY is 1 in each of the first `n` cycles and 0 in the one after them. -/
def BusyExactly (n : Nat) (t : State) : Prop :=
  (∀ k < n, ∃ u, runFor k t = .next u ∧ u.busy = true) ∧ ∃ u, runFor n t = .next u ∧ u.busy = false

theorem busyExactly_zero {t : State} (hb : t.busy = false) : BusyExactly 0 t :=
  ⟨fun k hk => absurd hk k.not_lt_zero, t, rfl, hb⟩

/-- An accepted command holds BUSY for the edges it has to run, N of R290. -/
theorem busyExactly_accept {s : State} (h : Coherent s) {op : Opcode} (h0 : op ≠ opNop) (h5 : op.toNat ≤ 5)
    (hr : noResetFor (latency op s.rkValid) s) :
    BusyExactly (latency op s.rkValid) (driveRdata 0#64 (accept s op s)) := by
  have hleft : edgesLeft (driveRdata 0#64 (accept s op s)) = latency op s.rkValid := edgesLeft_accept s h0 h5
  constructor
  · intro k hk
    obtain ⟨u, hrun, hflown⟩ := runFor_accept h h0 h5 hk.le (hr.mono hk.le)
    exact ⟨u, hrun, hflown.busy (hleft.symm ▸ hk)⟩
  · obtain ⟨u, hrun, hflown⟩ := runFor_accept h h0 h5 le_rfl hr
    exact ⟨u, hrun, hflown.rest hleft⟩

/-- At rest a CMD write of any opcode is followed by exactly N busy cycles: a command runs its edges, and a word that is
not accepted leaves BUSY = 0. -/
theorem busyExactly_cmdWrite {s : State} (h : Coherent s) (hb : s.busy = false) (op : Opcode)
    (hr : noResetFor (latency op s.rkValid) s) :
    BusyExactly (latency op s.rkValid) (driveRdata 0#64 (cmdWrite s op s)) := by
  rcases cmdWrite_cases s op with ⟨h0, hw⟩ | ⟨h1, h5, hw⟩ | ⟨h6, hw⟩
  · rw [hw, latency_of_notAccepted (.inl h0)]
    exact busyExactly_zero hb
  · have hnop : op ≠ opNop := by rintro rfl; exact absurd h1 (by decide)
    rw [hw]
    exact busyExactly_accept h hnop h5 hr
  · rw [hw, latency_of_notAccepted (.inr h6)]
    exact busyExactly_zero hb

theorem exec_decodeCmd_idle {s : State} (hb : s.busy = false) (w : Block) :
    exec (decodeCmd w) s = .next (driveRdata 0#64 (cmdWrite s (cmdOp w) s)) := by
  rw [exec_decodeCmd, exec_wr, writeReg, writeCycle_idle hb]

/-- Settles O36: the rows by the three kinds of opcode, and N as the busy cycles after a CMD write. -/
theorem latencyTable : Obligations.LatencyTable := by
  refine ⟨?_, ?_, ?_, ?_⟩
  · intro op h1 h4
    have hop := (isBlockOp_iff_range op).mpr ⟨h1, h4⟩
    exact ⟨⟨ksEdges_of_isBlockOp hop true, rndEdges_of_isBlockOp hop, latency_of_isBlockOp hop true⟩,
      ksEdges_of_isBlockOp hop false, latency_of_isBlockOp hop false⟩
  · exact fun v => ⟨rfl, rfl, latency_keysched v⟩
  · intro op v hop
    obtain ⟨hks, hrnd⟩ := edges_of_notAccepted hop v
    exact ⟨hks, hrnd, latency_of_notAccepted hop v⟩
  · intro w s h hb hr
    exact ⟨_, exec_decodeCmd_idle hb w, busyExactly_cmdWrite h hb (cmdOp w) hr⟩

end Sys2Proof.Machine
